-- ==== Sys2Proof/Word.lean ====
section
/-! DEFINITION. The machine word: every host-visible register is 32 bits wide (00_scope.md R7, 10_state.md R29). -/

namespace Sys2Proof

/-- A 32-bit register value, command word or operand. -/
abbrev Word := BitVec 32

end Sys2Proof
end

