-- ==== Sys2Proof/Syntax.lean ====
section
/-! DEFINITION. The commands of the block: one constructor per row of spec/opcode_table.json (30_encoding.md R72). -/

namespace Sys2Proof

/-- A command. `n` is the repeat count CNT, the only immediate (30_encoding.md R71). -/
inductive Instr where
  /-- no operation (45_system.md R116) -/
  | nop
  /-- load both registers for a new run (40_lfsr.md R86) -/
  | xload
  /-- advance X1 `n` times (40_lfsr.md R87) -/
  | adv1 (n : Nat)
  /-- advance X2 `n` times (40_lfsr.md R88) -/
  | adv2 (n : Nat)
  /-- joint advance `n` times (40_lfsr.md R89) -/
  | advj (n : Nat)
  /-- generate Gold bits from ARG_CINIT (41_gold.md R95) -/
  | gen
  /-- compute c_init (42_cinit.md R100) -/
  | cinit
  /-- compute c_init and generate from it (42_cinit.md R101) -/
  | genid
  /-- build every cache entry (43_seed_cache.md R105) -/
  | build
  /-- validate a host-loaded cache (43_seed_cache.md R106) -/
  | commit
  /-- mark the cache EMPTY (43_seed_cache.md R107) -/
  | inval
  /-- search the cache for a query tail (44_recovery.md R113) -/
  | find
  /-- identifiability report (44_recovery.md R114) -/
  | report
deriving DecidableEq, Repr

end Sys2Proof
end

