-- ==== Sys2Proof/WellFormed.lean ====
section
/-! DEFINITION. Which commands are well formed: the count fits the 16-bit field CNT (30_encoding.md R70, R71). -/

namespace Sys2Proof

/-- The repeat count fits CNT: "`0 <= n <= 65535`" (30_encoding.md R71). -/
def Instr.countFits (n : Nat) : Bool := decide (n < 65536)

/-- The command has an encoding. -/
def Instr.wf : Instr → Bool
  | .adv1 n => Instr.countFits n
  | .adv2 n => Instr.countFits n
  | .advj n => Instr.countFits n
  | .nop => true
  | .xload => true
  | .gen => true
  | .cinit => true
  | .genid => true
  | .build => true
  | .commit => true
  | .inval => true
  | .find => true
  | .report => true

end Sys2Proof
end

