-- ==== Sys2Proof/Decode.lean ====
section
/-! DEFINITION. The decoder of command words, total and rejecting by name (30_encoding.md R70, R73, R74), and the
encoder after it (30_encoding.md R70, R72, R78). -/

namespace Sys2Proof

/-- Why a command word is illegal: the three tests of 30_encoding.md R74, in its order. -/
inductive IllegalWord where
  /-- `RSV != 0` (R73 (b)) -/
  | reservedBitsSet
  /-- `OP` in `0x0D..0xFF` (R73 (a)) -/
  | reservedOpcode
  /-- `CNT != 0` on a command that takes no count (R73 (c)) -/
  | countNotAllowed
deriving DecidableEq, Repr

/-- What the decoder answers for a word. -/
inductive Decoded where
  | ok (i : Instr)
  | illegal (why : IllegalWord)
deriving DecidableEq, Repr

/-- `OP`, bits [7:0] (R70). -/
def opField (w : Word) : BitVec 8 := w.extractLsb' 0 8
/-- `RSV`, bits [15:8] (R70). -/
def rsvField (w : Word) : BitVec 8 := w.extractLsb' 8 8
/-- `CNT`, bits [31:16] (R70). -/
def cntField (w : Word) : BitVec 16 := w.extractLsb' 16 16

/-- The command an opcode selects, given the zero-extended count (R71, R72); `none` for `0x0D..0xFF`. -/
def commandOf (op cnt : Nat) : Option Instr :=
  match op with
  | 0x00 => some .nop
  | 0x01 => some .xload
  | 0x02 => some (.adv1 cnt)
  | 0x03 => some (.adv2 cnt)
  | 0x04 => some (.advj cnt)
  | 0x05 => some .gen
  | 0x06 => some .cinit
  | 0x07 => some .genid
  | 0x08 => some .build
  | 0x09 => some .commit
  | 0x0A => some .inval
  | 0x0B => some .find
  | 0x0C => some .report
  | _ => none

/-- Whether the command takes a count: `{0x02, 0x03, 0x04}` (R74). -/
def Instr.takesCount : Instr → Bool
  | .adv1 _ => true
  | .adv2 _ => true
  | .advj _ => true
  | .nop => false
  | .xload => false
  | .gen => false
  | .cinit => false
  | .genid => false
  | .build => false
  | .commit => false
  | .inval => false
  | .find => false
  | .report => false

/-- `decode(w)` of 30_encoding.md R74: RSV, then the opcode range, then CNT. -/
def decode (w : Word) : Decoded :=
  if rsvField w ≠ 0#8 then .illegal .reservedBitsSet
  else
    match commandOf (opField w).toNat (cntField w).toNat with
    | none => .illegal .reservedOpcode
    | some i =>
      if ¬ i.takesCount ∧ cntField w ≠ 0#16 then .illegal .countNotAllowed else .ok i

/-- The opcode of a command (R72). -/
def Instr.opcode : Instr → Nat
  | .nop => 0x00
  | .xload => 0x01
  | .adv1 _ => 0x02
  | .adv2 _ => 0x03
  | .advj _ => 0x04
  | .gen => 0x05
  | .cinit => 0x06
  | .genid => 0x07
  | .build => 0x08
  | .commit => 0x09
  | .inval => 0x0A
  | .find => 0x0B
  | .report => 0x0C

/-- The count of a command, 0 where it takes none (R77: "`n` defaults to 0"). -/
def Instr.count : Instr → Nat
  | .adv1 n => n
  | .adv2 n => n
  | .advj n => n
  | .nop => 0
  | .xload => 0
  | .gen => 0
  | .cinit => 0
  | .genid => 0
  | .build => 0
  | .commit => 0
  | .inval => 0
  | .find => 0
  | .report => 0

/-- The word of a command: `(n << 16) | OP` (R70, R78). -/
def encode (i : Instr) : Word := BitVec.ofNat 32 (i.count <<< 16 ||| i.opcode)

/-- The command the decoder reads from a table row's bits. A command is one 32-bit word (R69), so the row's bits are the
whole word; bits above `nbits` are 0. -/
def decodeTableWord (nbits w : Nat) : Option Instr :=
  match decode (BitVec.ofNat 32 (w % 2 ^ nbits)) with
  | .ok i => some i
  | .illegal _ => none

end Sys2Proof
end

