-- ==== Sys2Proof/Machine/Bits.lean ====
section
/-! DEFINITION. Bit sequences and words: packing least significant bit first (20_memory.md R62), the little-endian byte
view (20_memory.md R61), and writing bits into a bit vector. -/

namespace Sys2Proof.Machine

/-- The number whose bit `i` is element `i` of the sequence (20_memory.md R62). -/
def packBits : List Bool → Nat
  | [] => 0
  | b :: bs => b.toNat + 2 * packBits bs

/-- The word whose bit `j` is `f j` (10_state.md R45, R46, R49). -/
def wordOfBits (f : Nat → Bool) : Word := BitVec.ofNat 32 (packBits ((List.range 32).map f))

/-- `v` with bit `i` replaced by `b`. -/
def writeBit {n : Nat} (v : BitVec n) (i : Nat) (b : Bool) : BitVec n :=
  (v &&& ~~~(1#n <<< i)) ||| ((if b then 1#n else 0#n) <<< i)

/-- The vector whose bits `lo .. lo + len` are 1. -/
def maskBits (n lo len : Nat) : BitVec n := BitVec.ofNat n (2 ^ len - 1) <<< lo

/-- Byte `k` of a word on a byte-addressed bus: bits `[8k+7 : 8k]`, little-endian (20_memory.md R61). -/
def byteOf (w : Word) (k : Fin 4) : BitVec 8 := w.extractLsb' (8 * k.val) 8

/-- A Boolean as a one-bit field at bit `pos` of a word. -/
def bitAt (b : Bool) (pos : Nat) : Word := BitVec.ofNat 32 (b.toNat <<< pos)

end Sys2Proof.Machine
end

