-- ==== Sys2Proof/Config.lean ====
section
/-! DEFINITION. What one realisation of the block fixes: the parameters of 00_scope.md R7, the fixed ones as constants and
the three sizes as an argument of the model with their legal ranges (U13, log 1), the platform's base address (log 9), and
the free values of the state the spec leaves unspecified (93_implementation_defined.md U1 to U3; logs 4 and 5). -/

namespace Sys2Proof.Config

/-- `P_LFSR_LEN` (R7): the length of each register, "length always 31". -/
abbrev lfsrLen : Nat := 31
/-- `P_NC` (R7): the warm-up offset of the Gold sequence. -/
abbrev nc : Nat := 1600
/-- `P_DISCARD` (R7, 90_conflicts.md C1): joint advances whose outputs are not emitted, `P_NC - 31`. -/
abbrev discard : Nat := 1569
/-- `P_NUM_IDS` (R7): the number of scrambling identifiers. -/
abbrev numIds : Nat := 65536
/-- `P_QUERY_MAX` (R7): the longest query tail. -/
abbrev queryMax : Nat := 64
/-- `P_WIN_CAP_RESET` (R7): the reset value of WIN_CAP. -/
abbrev winCapReset : Nat := 256
/-- The largest legal `P_GEN_MAX_BITS` and `P_CACHE_MAX_BITS` (R7). -/
abbrev maxBits : Nat := 65536
/-- The ID register's constant (10_state.md R30). -/
abbrev idValue : Word := 0x47333101#32

/-- The sizes a realisation chooses, each within the legal range of R7; U13: "`parameter`", an argument of the model. -/
structure Sizes where
  /-- `P_WIN_CAP_MAX` (R7): the largest legal window capacity -/
  winCapMax : Nat
  /-- `P_GEN_MAX_BITS` (R7): the bits of OUTBUF -/
  genMaxBits : Nat
  /-- `P_CACHE_MAX_BITS` (R7): the bit cells of a cache entry -/
  cacheMaxBits : Nat
  /-- `256 <= value <= 65535` (R7) -/
  winCapMax_legal : 256 ≤ winCapMax ∧ winCapMax ≤ 65535
  /-- `multiple of 32, 32 <= value <= 65536` (R7) -/
  genMaxBits_legal : genMaxBits % 32 = 0 ∧ 32 ≤ genMaxBits ∧ genMaxBits ≤ 65536
  /-- `multiple of 32, 64 <= value <= 65536` (R7) -/
  cacheMaxBits_legal : cacheMaxBits % 32 = 0 ∧ 64 ≤ cacheMaxBits ∧ cacheMaxBits ≤ 65536
deriving DecidableEq, Repr

/-- The sizes this spec decides (R7, D6). -/
def Sizes.decided : Sizes where
  winCapMax := 4096
  genMaxBits := 8192
  cacheMaxBits := 8192
  winCapMax_legal := by decide
  genMaxBits_legal := by decide
  cacheMaxBits_legal := by decide

/-- `GW`, the words of OUT_WIN (10_state.md R29). -/
def Sizes.genWords (z : Sizes) : Nat := z.genMaxBits / 32
/-- `CW`, the words of CACHE_WIN (10_state.md R29). -/
def Sizes.cacheWords (z : Sizes) : Nat := z.cacheMaxBits / 32

/-- The 64 KiB page of the host's address space at which the block stands (20_memory.md R52, D10: open). -/
opaque basePage : Nat
/-- `P_BASE` (20_memory.md R52): any 64 KiB-aligned host address. -/
def pBase : Nat := 65536 * basePage

/-- Free value: the bit that the unspecified cell `i` of OUTBUF holds, in its `n`-th unspecified period (U1, U2). -/
opaque freeOutbufBit (n i : Nat) : Bool
/-- Free value: the bit that the unspecified cell `i` of cache entry `id` holds, in its `n`-th unspecified period (U1, U2). -/
opaque freeCacheBit (n id i : Nat) : Bool
/-- Free value: the word that the unspecified cell `k` of RESULT holds, in its `n`-th unspecified period (U1, U2). -/
opaque freeResultWord (n k : Nat) : Word
/-- Free value: field number `field` of the snapshot after a reset (U3). -/
opaque freeSnapshotWord (n field : Nat) : Word

end Sys2Proof.Config
end

