-- ==== Sys2Proof/Machine/State.lean ====
section
/-! DEFINITION. The state of the block: everything 10_state.md gives it, as plain data, and its value after a hardware
reset (70_reset_and_hazards.md R138). -/

namespace Sys2Proof.Machine

/-- An LFSR unit, X1 or X2 (10_state.md R15). -/
structure Lfsr where
  /-- the ordered array of exactly 31 bits -/
  phys : BitVec 31
  /-- the index pointer for circular addressing, in `[0, 30]` -/
  ptr : Fin 31
  /-- advances since the last load, modulo 2^32 -/
  cnt : Word
  /-- the bit the latest advance returned -/
  last : Bool
  /-- the bounded memory window, oldest bit first (R17) -/
  win : List Bool
deriving DecidableEq, Repr

/-- Bit cells of which some hold a specified bit. A cell outside `known` was never written since it last became
unspecified (93_implementation_defined.md U1, U2); `val` is 0 there (log 6). -/
structure Cells (n : Nat) where
  known : BitVec n
  val : BitVec n
deriving DecidableEq, Repr

/-- Which free value an unspecified cell holds: number `base`, except that cells below a bound of `later` took a newer one
when a command that could have written them was aborted (70_reset_and_hazards.md R140); newest first (log 4). -/
structure FreeMark where
  base : Nat
  later : List (Nat × Nat)
deriving DecidableEq, Repr

/-- A seed-cache entry: its bit cells, of which the first `P_CACHE_MAX_BITS` exist, and its recorded length `elen`
(10_state.md R20). -/
structure CacheEntry where
  cells : Cells Config.maxBits
  elen : Word
deriving DecidableEq, Repr

/-- A sparse memory: key and content, keys strictly rising; an unlisted key reads as the memory's own default (log 6). -/
abbrev Memory (α : Type) := List (Nat × α)

/-- CACHE_STATE (10_state.md R20). -/
inductive CacheState where
  | empty
  | valid
  | stale
deriving DecidableEq, Repr

/-- The error a completed command recorded (60_exceptions.md R120). -/
inductive ErrCode where
  | noError
  | invalidParameter
  | cacheMismatch
  | cacheUnavailable
  | illegalCommand
deriving DecidableEq, Repr

/-- The hidden operand snapshot `S`, taken at acceptance (10_state.md R24). -/
structure Snapshot where
  cmd : Word
  winEn : Bool
  winCap : Word
  argCinit : Word
  argLen : Word
  argId : Word
  argSps : Word
  argSlot : Word
  argSym : Word
  queryLen : Word
  queryLo : Word
  queryHi : Word
deriving DecidableEq, Repr

/-- The snapshot after a reset: "unspecified and unobservable" (R24), so free values (log 5). -/
def Snapshot.unspecified (n : Nat) : Snapshot where
  cmd := Config.freeSnapshotWord n 0
  winEn := (Config.freeSnapshotWord n 1).getLsbD 0
  winCap := Config.freeSnapshotWord n 2
  argCinit := Config.freeSnapshotWord n 3
  argLen := Config.freeSnapshotWord n 4
  argId := Config.freeSnapshotWord n 5
  argSps := Config.freeSnapshotWord n 6
  argSlot := Config.freeSnapshotWord n 7
  argSym := Config.freeSnapshotWord n 8
  queryLen := Config.freeSnapshotWord n 9
  queryLo := Config.freeSnapshotWord n 10
  queryHi := Config.freeSnapshotWord n 11

/-- One event of the total order of 20_memory.md R63 (log 2). Offsets are 16 bits (R51, log 9); `size` is in bytes. -/
inductive Event where
  /-- the scheduler gives the engine its turn (60_exceptions.md R126) -/
  | engine
  /-- `MemRead(a, size)` (20_memory.md R53) -/
  | read (a : BitVec 16) (size : Nat)
  /-- `MemWrite(a, size, v)` (20_memory.md R54) -/
  | write (a : BitVec 16) (size : Nat) (v : Word)
  /-- the reset input is asserted (70_reset_and_hazards.md R138) -/
  | hardReset
deriving DecidableEq, Repr

/-- The state of the block, the events still to come and what the last host read returned. -/
structure State where
  /-- the configuration: the sizes of 00_scope.md R7, an argument of the step (R6, U13) that no step changes (log 1) -/
  sizes : Config.Sizes
  /-- CTRL.IE (10_state.md R34) -/
  ie : Bool
  /-- CTRL.WIN_EN (R34) -/
  winEn : Bool
  /-- STATUS.BUSY (R23) -/
  busy : Bool
  /-- STATUS.DONE (R35) -/
  done : Bool
  /-- STATUS.CMD_LOST (R35) -/
  cmdLost : Bool
  /-- STATUS.ACC_ERR (R35) -/
  accErr : Bool
  /-- STATUS.CACHE_STATE (R20) -/
  cacheState : CacheState
  /-- STATUS.ERR (R35) -/
  err : ErrCode
  /-- LAST_CMD (R25) -/
  lastCmd : Word
  /-- ARG_CINIT (R38) -/
  argCinit : Word
  /-- ARG_LEN (R38) -/
  argLen : Word
  /-- ARG_ID (R38) -/
  argId : Word
  /-- ARG_SPS (R38) -/
  argSps : Word
  /-- ARG_SLOT (R38) -/
  argSlot : Word
  /-- ARG_SYM (R38) -/
  argSym : Word
  /-- WIN_CAP (R39) -/
  winCap : Word
  /-- QUERY_LEN (R40) -/
  queryLen : Word
  /-- QUERY_LO (R40) -/
  queryLo : Word
  /-- QUERY_HI (R40) -/
  queryHi : Word
  /-- RES_CINIT (R41) -/
  resCinit : Word
  /-- RES_COUNT (R21, R41) -/
  resCount : Word
  /-- OUT_LEN (R37) -/
  outLen : Word
  /-- CACHE_LEN (R42) -/
  cacheLen : Word
  /-- CACHE_SEL.SEL (R43) -/
  cacheSel : BitVec 16
  /-- RESULT_IDX.IDX (R47) -/
  resultIdx : BitVec 16
  /-- WIN_SEL.UNIT (R48): false selects X1's window -/
  winSel : Bool
  /-- WIN_IDX.IDX (R48) -/
  winIdx : BitVec 16
  /-- the unit X1 (R15) -/
  x1 : Lfsr
  /-- the unit X2 (R15) -/
  x2 : Lfsr
  /-- OUTBUF, of which the first `P_GEN_MAX_BITS` cells exist (R19) -/
  outbuf : Cells Config.maxBits
  /-- the free values of OUTBUF's unspecified cells (model's own, log 4) -/
  outbufMark : FreeMark
  /-- the entries of CACHE (R20); an unlisted entry has no specified bit and length 0 -/
  cache : Memory CacheEntry
  /-- the free values of CACHE's unspecified cells (model's own, log 4) -/
  cacheMark : FreeMark
  /-- RESULT (R21); an unlisted word is unspecified -/
  result : Memory Word
  /-- the free value of RESULT's unspecified words (model's own, log 4) -/
  resultMark : Nat
  /-- REPORT (R22) -/
  report : Vector Word 64
  /-- the operand snapshot S (R24) -/
  snap : Snapshot
  /-- the number the next free value takes (model's own, log 4) -/
  freeCount : Nat
  /-- the coming events, next first (model's own, log 2) -/
  pending : List Event
  /-- what the latest host read returned (model's own, log 3) -/
  readData : Option Word
deriving DecidableEq, Repr

/-- What stops the machine: nothing does. "No behaviour of the block is `stuck`: every accepted command completes, and every
access has a defined outcome" (93_implementation_defined.md, section 1). No one raises a fault; an empty type is safe (log 7). -/
inductive Fault where
deriving DecidableEq, Repr

/-- Why the model gives no meaning. -/
inductive Refusal where
  /-- raised by an arm of `exec` for a command without a meaning in this model; safe; no arm of this model raises it (log 7) -/
  | notModelled (mnemonic : String)
deriving DecidableEq, Repr

/-- X1 as loaded: bit 0 is 1, all others 0 (40_lfsr.md R81, 10_state.md R18). -/
def Lfsr.atSeed : Lfsr where
  phys := 1#31
  ptr := 0
  cnt := 0#32
  last := false
  win := []

/-- X2 after a reset: all 0 (10_state.md R18). -/
def Lfsr.zero : Lfsr where
  phys := 0#31
  ptr := 0
  cnt := 0#32
  last := false
  win := []

/-- The block after a hardware reset at power-on: the table of 70_reset_and_hazards.md R138; the model's own fields as
logs 1 to 5 say. -/
def State.reset : State where
  sizes := .decided
  ie := false
  winEn := false
  busy := false
  done := false
  cmdLost := false
  accErr := false
  cacheState := .empty
  err := .noError
  lastCmd := 0#32
  argCinit := 0#32
  argLen := 0#32
  argId := 0#32
  argSps := 14#32
  argSlot := 4#32
  argSym := 2#32
  winCap := BitVec.ofNat 32 Config.winCapReset
  queryLen := 0#32
  queryLo := 0#32
  queryHi := 0#32
  resCinit := 0#32
  resCount := 0#32
  outLen := 0#32
  cacheLen := 0#32
  cacheSel := 0#16
  resultIdx := 0#16
  winSel := false
  winIdx := 0#16
  x1 := .atSeed
  x2 := .zero
  outbuf := ⟨0, 0⟩
  outbufMark := ⟨0, []⟩
  cache := []
  cacheMark := ⟨0, []⟩
  result := []
  resultMark := 0
  report := Vector.replicate 64 0#32
  snap := .unspecified 0
  freeCount := 1
  pending := []
  readData := none

end Sys2Proof.Machine
end

