-- ==== Sys2Proof/Machine/Ops.lean ====
section
/-! DEFINITION. The shared operations: sparse memories, bit cells, reading the internal memories, completing a command
with or without an error (60_exceptions.md R121, R122), accepting one (30_encoding.md R75) and the host-access error. -/

namespace Sys2Proof.Machine

/-- The three outcomes over this machine's types. -/
abbrev Outcome := Host.Outcome State Fault Refusal

/-! Sparse memories (log 6). -/

/-- The content listed at key `a`. -/
def Memory.find? {α : Type} : Memory α → Nat → Option α
  | [], _ => none
  | (b, w) :: m, a => if a = b then some w else Memory.find? m a

/-- The content at key `a`, where unlisted keys read as `d`. -/
def Memory.get {α : Type} (d : α) (m : Memory α) (a : Nat) : α := (Memory.find? m a).getD d

/-- List `v` at key `a`, in key order. -/
def Memory.put {α : Type} : Memory α → Nat → α → Memory α
  | [], a, v => [(a, v)]
  | (b, w) :: m, a, v =>
    if a < b then (a, v) :: (b, w) :: m
    else if a = b then (a, v) :: m
    else (b, w) :: Memory.put m a v

/-- Unlist key `a`. -/
def Memory.erase {α : Type} (m : Memory α) (a : Nat) : Memory α := m.filter fun e => e.1 != a

/-- Write `v` at key `a`, where unlisted keys read as `d`. -/
def Memory.set {α : Type} [DecidableEq α] (d : α) (m : Memory α) (a : Nat) (v : α) : Memory α :=
  if v = d then m.erase a else m.put a v

/-- The memory with content `f a` at every key `a < n` and `d` elsewhere. -/
def Memory.tabulate {α : Type} [DecidableEq α] (d : α) (n : Nat) (f : Nat → α) : Memory α :=
  (List.range' 0 n).filterMap fun a => if f a = d then none else some (a, f a)

/-- Every listed content `v` replaced by `f v` (used where `f d = d`). -/
def Memory.mapContents {α : Type} [DecidableEq α] (d : α) (f : α → α) (m : Memory α) : Memory α :=
  m.filterMap fun e => if f e.2 = d then none else some (e.1, f e.2)

/-- The contents of keys `0 .. vs.length` replaced by `vs`, the other keys as they were. -/
def Memory.putFromZero {α : Type} (m : Memory α) (vs : List α) : Memory α :=
  (List.range' 0 vs.length).zip vs ++ m.filter fun e => decide (vs.length ≤ e.1)

/-- The canonical form of a memory whose unlisted keys are unspecified: keys strictly rising. -/
abbrev Memory.sorted {α : Type} (m : Memory α) : Prop := m.Pairwise fun e e' => e.1 < e'.1

/-- The canonical form of a memory whose unlisted keys read as `d`: keys strictly rising and no content equal to `d`. -/
abbrev Memory.wf {α : Type} (d : α) (m : Memory α) : Prop := m.sorted ∧ ∀ e ∈ m, e.2 ≠ d

/-! Bit cells (log 6). -/

/-- No cell specified. -/
def Cells.blank (n : Nat) : Cells n := ⟨0#n, 0#n⟩

/-- The bit in cell `i`; `free` where the cell is unspecified. -/
def Cells.read {n : Nat} (c : Cells n) (i : Nat) (free : Bool) : Bool :=
  if c.known.getLsbD i then c.val.getLsbD i else free

/-- Cells `lo .. lo + len` take the bits of `v`; the others keep theirs. -/
def Cells.store {n : Nat} (c : Cells n) (lo len v : Nat) : Cells n where
  known := c.known ||| maskBits n lo len
  val := (c.val &&& ~~~maskBits n lo len) ||| ((BitVec.ofNat n v <<< lo) &&& maskBits n lo len)

/-- Cells `0 .. len` become unspecified; the others keep theirs. -/
def Cells.forget {n : Nat} (c : Cells n) (len : Nat) : Cells n where
  known := c.known &&& ~~~maskBits n 0 len
  val := c.val &&& ~~~maskBits n 0 len

/-- The canonical form of bit cells: `val` is 0 in every unspecified cell. -/
abbrev Cells.wf {n : Nat} (c : Cells n) : Prop := c.val &&& ~~~c.known = 0#n

/-- The number of the free value that the unspecified cell `i` holds. -/
def FreeMark.markAt (m : FreeMark) (i : Nat) : Nat :=
  match m.later.find? fun p => decide (i < p.1) with
  | some p => p.2
  | none => m.base

/-- Unspecified cells below `bound` hold free value number `n` from now on. -/
def FreeMark.renew (m : FreeMark) (bound n : Nat) : FreeMark := { m with later := (bound, n) :: m.later }

/-! Reading the internal memories. -/

/-- A cache entry of which nothing is known and whose recorded length is 0 (10_state.md R20). -/
def CacheEntry.blank : CacheEntry := ⟨Cells.blank Config.maxBits, 0#32⟩

/-- The canonical form of CACHE: entries by rising identifier below 65536, none blank, each with canonical cells. -/
abbrev cacheWf (m : Memory CacheEntry) : Prop :=
  Memory.wf CacheEntry.blank m ∧ ∀ e ∈ m, e.1 < Config.numIds ∧ e.2.cells.wf

/-- `OUTBUF.bit(i)` (10_state.md R19). -/
def State.outBit (s : State) (i : Nat) : Bool := s.outbuf.read i (Config.freeOutbufBit (s.outbufMark.markAt i) i)

/-- Entry `id` of CACHE (10_state.md R20). -/
def State.cacheEntry (s : State) (id : Nat) : CacheEntry := Memory.get CacheEntry.blank s.cache id

/-- Bit `i` of entry `e`, when it stands in CACHE at `id`. -/
def State.entryBit (s : State) (e : CacheEntry) (id i : Nat) : Bool :=
  e.cells.read i (Config.freeCacheBit (s.cacheMark.markAt i) id i)

/-- `CACHE.bit(id, i)` (10_state.md R20). -/
def State.cacheBit (s : State) (id i : Nat) : Bool := s.entryBit (s.cacheEntry id) id i

/-- `CACHE.elen(id)` (10_state.md R20). -/
def State.elen (s : State) (id : Nat) : Word := (s.cacheEntry id).elen

/-- `RESULT[k]` (10_state.md R21). -/
def State.resultWord (s : State) (k : Nat) : Word :=
  (Memory.find? s.result k).getD (Config.freeResultWord s.resultMark k)

/-- Every entry of CACHE with its identifier, ascending. -/
def State.entryTable (s : State) : List (Nat × CacheEntry) :=
  (List.range' 0 Config.numIds).map fun id => (id, s.cacheEntry id)

/-- Entry `id` of CACHE replaced by `e`. -/
def State.setCacheEntry (s : State) (id : Nat) (e : CacheEntry) : State :=
  { s with cache := Memory.set CacheEntry.blank s.cache id e }

/-! Completion and acceptance. -/

/-- The completion fields: `ERR <- code`, `BUSY <- 0`, `DONE <- 1` (30_encoding.md R76, 60_exceptions.md R121). -/
def State.finish (s : State) (e : ErrCode) : State := { s with err := e, busy := false, done := true }

/-- The block's exception: `raise e` ends the command, which completes with its code and nothing else changed (00_scope.md
R12, 60_exceptions.md R121, R122, R124). No control is transferred (R129). There is no return from it; the host's part is
`acknowledge` (R130). -/
def raiseError (e : ErrCode) (s : State) : Outcome := .next (s.finish e)

/-- A command that raises nothing completes with code 0 (60_exceptions.md R120, R121). -/
def succeed (s : State) : Outcome := .next (s.finish .noError)

/-- What stands in the place of a return from an exception: `ack` clears STATUS.DONE (60_exceptions.md R127, R130). -/
def State.acknowledge (s : State) : State := { s with done := false }

/-- The first error whose condition holds, in the order of the list; none if none holds (60_exceptions.md R123). -/
def firstError : List (Bool × ErrCode) → ErrCode
  | [] => .noError
  | (bad, e) :: rest => if bad then e else firstError rest

/-- A command: all checks precede all effects (60_exceptions.md R122). -/
def runChecked (checks : List (Bool × ErrCode)) (effect : State → State) (s : State) : Outcome :=
  match firstError checks with
  | .noError => succeed (effect s)
  | e => raiseError e s

/-- `snapshot(v)`: the command word and the then-current operands (10_state.md R24). -/
def State.capture (s : State) (v : Word) : Snapshot where
  cmd := v
  winEn := s.winEn
  winCap := s.winCap
  argCinit := s.argCinit
  argLen := s.argLen
  argId := s.argId
  argSps := s.argSps
  argSlot := s.argSlot
  argSym := s.argSym
  queryLen := s.queryLen
  queryLo := s.queryLo
  queryHi := s.queryHi

/-- Acceptance of a command word; it is not decoded (30_encoding.md R75). -/
def State.accept (s : State) (v : Word) : State :=
  { s with lastCmd := v, snap := s.capture v, done := false, busy := true }

/-- A CMD write that passed the access checks (30_encoding.md R75). -/
def State.issue (s : State) (v : Word) : State := if s.busy then { s with cmdLost := true } else s.accept v

/-- A refused or illegal host access sets STATUS.ACC_ERR (60_exceptions.md R125). -/
def State.accessError (s : State) : State := { s with accErr := true }

end Sys2Proof.Machine
end

