-- ==== Sys2Proof/Machine/Operands.lean ====
section
/-! DEFINITION. The operands of the commands, all read from the snapshot S (10_state.md R24, 30_encoding.md R71), and the
checks each command makes of them and of the sizes `z`, in the order of 60_exceptions.md R123. -/

namespace Sys2Proof.Machine

/-- The capacity in force if window recording is on: every advance pushes with `S.WIN_CAP` when `S.WIN_EN = 1`
(40_lfsr.md R82). -/
def Snapshot.window (S : Snapshot) : Option Nat := if S.winEn then some S.winCap.toNat else none

/-- `S.WIN_EN = 1 and not (1 <= S.WIN_CAP <= P_WIN_CAP_MAX)` (40_lfsr.md R84). -/
def Snapshot.windowIllegal (S : Snapshot) (z : Config.Sizes) : Bool :=
  S.winEn && !(decide (1 ≤ S.winCap.toNat) && decide (S.winCap.toNat ≤ z.winCapMax))

/-- `S.ARG_ID > 65535` (42_cinit.md R98). -/
def Snapshot.idIllegal (S : Snapshot) : Bool := decide (65535 < S.argId.toNat)

/-- `S.ARG_LEN > P_GEN_MAX_BITS` (41_gold.md R95). -/
def Snapshot.genLenIllegal (S : Snapshot) (z : Config.Sizes) : Bool := decide (z.genMaxBits < S.argLen.toNat)

/-- `S.ARG_LEN > P_CACHE_MAX_BITS` (43_seed_cache.md R105, R106). -/
def Snapshot.cacheLenIllegal (S : Snapshot) (z : Config.Sizes) : Bool := decide (z.cacheMaxBits < S.argLen.toNat)

/-- `S.QUERY_LEN` is not in `1..64` (44_recovery.md R113). -/
def Snapshot.queryLenIllegal (S : Snapshot) : Bool :=
  decide (S.queryLen.toNat = 0) || decide (Config.queryMax < S.queryLen.toNat)

/-- Bit `i` of the query tail: bit `i` of `QUERY_HI : QUERY_LO` (10_state.md R40). -/
def Snapshot.queryBit (S : Snapshot) (i : Nat) : Bool :=
  if i < 32 then S.queryLo.getLsbD i else S.queryHi.getLsbD (i - 32)

/-- ADV1, ADV2, ADVJ: the window capacity (R123). -/
def advanceChecks (z : Config.Sizes) (S : Snapshot) : List (Bool × ErrCode) := [(S.windowIllegal z, .invalidParameter)]

/-- GEN: ARG_LEN, then the window capacity (R123). -/
def genChecks (z : Config.Sizes) (S : Snapshot) : List (Bool × ErrCode) :=
  [(S.genLenIllegal z, .invalidParameter), (S.windowIllegal z, .invalidParameter)]

/-- CINIT: ARG_ID (R123). -/
def cinitChecks (S : Snapshot) : List (Bool × ErrCode) := [(S.idIllegal, .invalidParameter)]

/-- GENID: ARG_ID, ARG_LEN, then the window capacity (R123). -/
def genidChecks (z : Config.Sizes) (S : Snapshot) : List (Bool × ErrCode) :=
  [(S.idIllegal, .invalidParameter), (S.genLenIllegal z, .invalidParameter), (S.windowIllegal z, .invalidParameter)]

/-- BUILD: ARG_LEN, then the window capacity (R123). -/
def buildChecks (z : Config.Sizes) (S : Snapshot) : List (Bool × ErrCode) :=
  [(S.cacheLenIllegal z, .invalidParameter), (S.windowIllegal z, .invalidParameter)]

/-- COMMIT: ARG_LEN; its comparison of the entry lengths is an effect of its own (43_seed_cache.md R106). -/
def commitChecks (z : Config.Sizes) (S : Snapshot) : List (Bool × ErrCode) := [(S.cacheLenIllegal z, .invalidParameter)]

/-- FIND: QUERY_LEN, EMPTY, STALE (R123). -/
def findChecks (s : State) : List (Bool × ErrCode) :=
  [(s.snap.queryLenIllegal, .invalidParameter), (decide (s.cacheState = .empty), .cacheUnavailable),
    (decide (s.cacheState = .stale), .cacheMismatch)]

/-- REPORT: ARG_ID, EMPTY, STALE, `CACHE_LEN < 64` (R123). -/
def reportChecks (s : State) : List (Bool × ErrCode) :=
  [(s.snap.idIllegal, .invalidParameter), (decide (s.cacheState = .empty), .cacheUnavailable),
    (decide (s.cacheState = .stale), .cacheMismatch), (decide (s.cacheLen.toNat < Config.queryMax), .invalidParameter)]

end Sys2Proof.Machine
end

