-- ==== Sys2Proof/Machine/Lfsr.lean ====
section
/-! DEFINITION. The LFSR units (40_lfsr.md R79 to R85) and the commands XLOAD, ADV1, ADV2, ADVJ (R86 to R89). -/

namespace Sys2Proof.Machine

/-- `TAPS(X1) = {3, 0}` (40_lfsr.md R80). -/
def tapsX1 : List Nat := [3, 0]
/-- `TAPS(X2) = {3, 2, 1, 0}` (40_lfsr.md R80). -/
def tapsX2 : List Nat := [3, 2, 1, 0]

/-- The sum modulo 2 of a list of bits (40_lfsr.md R80). -/
def xorAll (bs : List Bool) : Bool := bs.foldl Bool.xor false

/-- The loaded bits of X1: `x1(0) = 1`, `x1(1..31) = 0` (40_lfsr.md R81). -/
def seedX1 (k : Nat) : Bool := decide (k = 0)

/-- The loaded bits of X2: `x2(k) = c[k]` (40_lfsr.md R81). -/
def seedX2 (c : Word) (k : Nat) : Bool := c.getLsbD k

/-- `x1(n)`: `x1(n + 31) = (x1(n + 3) + x1(n)) mod 2` from its seed (40_lfsr.md R79, R81). -/
def refX1 : Nat → Bool
  | n + 31 => refX1 (n + 3) ^^ refX1 n
  | k => seedX1 k

/-- `x2(n)` for c_init `c`: `x2(n + 31) = (x2(n + 3) + x2(n + 2) + x2(n + 1) + x2(n)) mod 2` from its seed
(40_lfsr.md R79, R81). -/
def refX2 (c : Word) : Nat → Bool
  | n + 31 => refX2 c (n + 3) ^^ refX2 c (n + 2) ^^ refX2 c (n + 1) ^^ refX2 c n
  | k => seedX2 c k

/-- `seq(j) = phys[(ptr + j) mod 31]`, the logical view (10_state.md R16). -/
def Lfsr.seq (u : Lfsr) (j : Nat) : Bool := u.phys.getLsbD ((u.ptr.val + j) % 31)

/-- Loading X1: its fixed seed (40_lfsr.md R81). -/
def loadX1 : Lfsr := ⟨1#31, 0, 0#32, false, []⟩

/-- Loading X2: bits 30..0 of `c` (40_lfsr.md R81). -/
def loadX2 (c : Word) : Lfsr := ⟨c.extractLsb' 0 31, 0, 0#32, false, []⟩

/-- `winpush(w, b, K)`: append, then evict the oldest bits while `len(w) > K` (40_lfsr.md R83). -/
def winpush (w : List Bool) (b : Bool) (K : Nat) : List Bool := (w ++ [b]).drop (w.length + 1 - K)

/-- The feedback bit: the XOR of the tapped bits (40_lfsr.md R80, R82). -/
def Lfsr.feedback (taps : List Nat) (u : Lfsr) : Bool := xorAll (taps.map u.seq)

/-- `adv(X)` (40_lfsr.md R82); the returned bit is the new `last`. `window` is the capacity if recording is on. -/
def Lfsr.adv (taps : List Nat) (window : Option Nat) (u : Lfsr) : Lfsr where
  phys := writeBit u.phys u.ptr.val (u.feedback taps)
  ptr := u.ptr + 1
  cnt := u.cnt + 1#32
  last := u.feedback taps
  win :=
    match window with
    | none => u.win
    | some K => winpush u.win (u.feedback taps) K

/-- `repeat n: adv(X)`. -/
def Lfsr.advN (taps : List Nat) (window : Option Nat) : Nat → Lfsr → Lfsr
  | 0, u => u
  | n + 1, u => Lfsr.advN taps window n (u.adv taps window)

/-- XLOAD (40_lfsr.md R86): load both registers; this clears both windows. -/
def execXload (s : State) : Outcome := succeed { s with x1 := loadX1, x2 := loadX2 s.snap.argCinit }

/-- ADV1 n (40_lfsr.md R87). -/
def execAdv1 (n : Nat) (s : State) : Outcome :=
  runChecked (advanceChecks s.sizes s.snap) (fun s => { s with x1 := s.x1.advN tapsX1 s.snap.window n }) s

/-- ADV2 n (40_lfsr.md R88). -/
def execAdv2 (n : Nat) (s : State) : Outcome :=
  runChecked (advanceChecks s.sizes s.snap) (fun s => { s with x2 := s.x2.advN tapsX2 s.snap.window n }) s

/-- ADVJ n (40_lfsr.md R89): the units share no state, so the order of the advances changes no result. -/
def execAdvj (n : Nat) (s : State) : Outcome :=
  runChecked (advanceChecks s.sizes s.snap)
    (fun s => { s with x1 := s.x1.advN tapsX1 s.snap.window n, x2 := s.x2.advN tapsX2 s.snap.window n }) s

end Sys2Proof.Machine
end

