-- ==== Sys2Proof/Machine/Gold.lean ====
section
/-! DEFINITION. The Gold sequence (41_gold.md R90, R91) and the command GEN (R95). -/

namespace Sys2Proof.Machine

/-- The reference definition, normative: `c(n) = (x1(n + Nc) + x2(n + Nc)) mod 2` (41_gold.md R90). -/
def goldRef (c : Word) (n : Nat) : Bool := refX1 (n + Config.nc) ^^ refX2 c (n + Config.nc)

/-- What a generation run leaves: both units and the bits emitted. -/
structure GoldRun where
  x1 : Lfsr
  x2 : Lfsr
  bits : List Bool
deriving DecidableEq, Repr

/-- Step 3 of `goldrun` (41_gold.md R91): `n` joint advances, each emitting the sum modulo 2 of the two returned bits. -/
def goldEmit (window : Option Nat) : Nat → Lfsr → Lfsr → GoldRun
  | 0, x1, x2 => ⟨x1, x2, []⟩
  | n + 1, x1, x2 =>
    let r := goldEmit window n (x1.adv tapsX1 window) (x2.adv tapsX2 window)
    { r with bits := (x1.feedback tapsX1 ^^ x2.feedback tapsX2) :: r.bits }

/-- `goldrun(c, L)` (41_gold.md R91): load, discard `P_DISCARD` joint advances, emit `L` bits. -/
def goldrun (window : Option Nat) (c : Word) (L : Nat) : GoldRun :=
  goldEmit window L (loadX1.advN tapsX1 window Config.discard) ((loadX2 c).advN tapsX2 window Config.discard)

/-- A generation run into OUTBUF: bits `0..L`, OUT_LEN, and both units (41_gold.md R95, 42_cinit.md R101). -/
def State.generate (s : State) (c : Word) : State :=
  let r := goldrun s.snap.window c s.snap.argLen.toNat
  { s with
    x1 := r.x1
    x2 := r.x2
    outbuf := s.outbuf.store 0 s.snap.argLen.toNat (packBits r.bits)
    outLen := s.snap.argLen }

/-- GEN (41_gold.md R95). -/
def execGen (s : State) : Outcome := runChecked (genChecks s.sizes s.snap) (fun s => s.generate s.snap.argCinit) s

end Sys2Proof.Machine
end

