-- ==== Sys2Proof/Machine/Cinit.lean ====
section
/-! DEFINITION. The c_init calculator (42_cinit.md R96, R97) and the commands CINIT and GENID (R100, R101). -/

namespace Sys2Proof.Machine

/-- The document's formula over integers (42_cinit.md R96). -/
def cinitFormula (id sps slot sym : Int) : Int :=
  (2 ^ 17 * (sps * slot + sym + 1) * (2 * id + 1) + 2 * id) % 2 ^ 31

/-- The block's realisation modulo 2^32, result bits 30..0 (42_cinit.md R97). -/
def cinitFn (id sps slot sym : Word) : Word :=
  ((sps * slot + sym + 1#32) * 0x20000#32 * (2#32 * id + 1#32) + 2#32 * id) &&& 0x7FFFFFFF#32

/-- The c_init of identifier `id` with the snapshot's other operands. -/
def Snapshot.cinitOf (S : Snapshot) (id : Word) : Word := cinitFn id S.argSps S.argSlot S.argSym

/-- CINIT (42_cinit.md R100). -/
def execCinit (s : State) : Outcome :=
  runChecked (cinitChecks s.snap) (fun s => { s with resCinit := s.snap.cinitOf s.snap.argId }) s

/-- GENID (42_cinit.md R101). -/
def execGenid (s : State) : Outcome :=
  runChecked (genidChecks s.sizes s.snap)
    (fun s => { s with resCinit := s.snap.cinitOf s.snap.argId }.generate (s.snap.cinitOf s.snap.argId)) s

end Sys2Proof.Machine
end

