-- ==== Sys2Proof/Machine/SeedCache.lean ====
section
/-! DEFINITION. The seed cache's commands BUILD, COMMIT and INVAL (43_seed_cache.md R105 to R107). -/

namespace Sys2Proof.Machine

/-- The run that BUILD performs for identifier `id` (43_seed_cache.md R105). -/
def Snapshot.buildRun (S : Snapshot) (id : Nat) : GoldRun :=
  goldrun S.window (S.cinitOf (BitVec.ofNat 32 id)) S.argLen.toNat

/-- Entry `id` after BUILD: bits `0..N` from its run, the other bits kept, recorded length `N` (43_seed_cache.md R105). -/
def State.builtEntry (s : State) (id : Nat) : CacheEntry where
  cells := (s.cacheEntry id).cells.store 0 s.snap.argLen.toNat (packBits (s.snap.buildRun id).bits)
  elen := s.snap.argLen

/-- BUILD's effect: every entry, CACHE_LEN, CACHE_STATE, and the units in the state of the run for the last identifier,
65535, since every run loads both (43_seed_cache.md R105; log 8). -/
def State.buildCache (s : State) : State :=
  { s with
    cache := Memory.tabulate CacheEntry.blank Config.numIds s.builtEntry
    cacheLen := s.snap.argLen
    cacheState := .valid
    x1 := (s.snap.buildRun 65535).x1
    x2 := (s.snap.buildRun 65535).x2 }

/-- BUILD (43_seed_cache.md R105). -/
def execBuild (s : State) : Outcome := runChecked (buildChecks s.sizes s.snap) State.buildCache s

/-- `CACHE.elen(id) = N for every id in 0..65536` (43_seed_cache.md R106). -/
def State.everyLenIs (s : State) (N : Word) : Bool := s.entryTable.all fun e => e.2.elen == N

/-- COMMIT (43_seed_cache.md R106): CACHE_MISMATCH keeps the CACHE_LEN and CACHE_STATE just written. -/
def execCommit (s : State) : Outcome :=
  match firstError (commitChecks s.sizes s.snap) with
  | .noError =>
    .next
      (if s.everyLenIs s.snap.argLen then
        { s with cacheLen := s.snap.argLen, cacheState := .valid }.finish .noError
      else
        { s with cacheLen := s.snap.argLen, cacheState := .stale }.finish .cacheMismatch)
  | e => raiseError e s

/-- INVAL (43_seed_cache.md R107). -/
def execInval (s : State) : Outcome := succeed { s with cacheState := .empty }

end Sys2Proof.Machine
end

