-- ==== Sys2Proof/Machine/Recovery.lean ====
section
/-! DEFINITION. The substring matcher (44_recovery.md R110) and the commands FIND and REPORT (R113, R114). -/

namespace Sys2Proof.Machine

/-- Entry `e`, in CACHE at `id`, holds `q[0..L)` at position `p` (44_recovery.md R110). -/
def State.matchesAt (s : State) (q : Nat → Bool) (L id : Nat) (e : CacheEntry) (p : Nat) : Bool :=
  (List.range L).all fun j => s.entryBit e id (p + j) == q j

/-- The least position `p`, `p + L <= N`, at which the entry matches (44_recovery.md R110). -/
def State.matchPos (s : State) (q : Nat → Bool) (L N id : Nat) (e : CacheEntry) : Option Nat :=
  (List.range (N + 1 - L)).find? (s.matchesAt q L id e)

/-- Identifier and position of every matching entry, ascending (44_recovery.md R113). -/
def State.findMatches (s : State) (q : Nat → Bool) (L N : Nat) : List (Nat × Nat) :=
  s.entryTable.filterMap fun e => (s.matchPos q L N e.1 e.2).map fun p => (e.1, p)

/-- A RESULT word: `(p0 << 16) | id` (44_recovery.md R113). -/
def resultOf (hit : Nat × Nat) : Word := BitVec.ofNat 32 (hit.2 <<< 16 ||| hit.1)

/-- FIND's effect (44_recovery.md R113). -/
def State.recover (s : State) : State :=
  let hits := s.findMatches s.snap.queryBit s.snap.queryLen.toNat s.cacheLen.toNat
  { s with result := s.result.putFromZero (hits.map resultOf), resCount := BitVec.ofNat 32 hits.length }

/-- FIND (44_recovery.md R113). -/
def execFind (s : State) : Outcome := runChecked (findChecks s) State.recover s

/-- Bit `j` of the tail of length `L` of the truth entry `T` (44_recovery.md R114). -/
def State.tailBit (s : State) (T L j : Nat) : Bool := s.cacheBit T (s.cacheLen.toNat - L + j)

/-- The number of entries that match a tail of length `L` (44_recovery.md R114). -/
def State.countMatches (s : State) (table : List (Nat × CacheEntry)) (q : Nat → Bool) (L N : Nat) : Nat :=
  table.countP fun e => (s.matchPos q L N e.1 e.2).isSome

/-- REPORT's counts: `REPORT[L - 1]` for `L` in `1..64` (44_recovery.md R114). -/
def State.reportWords (s : State) : Vector Word 64 :=
  let table := s.entryTable
  Vector.ofFn fun k : Fin 64 =>
    BitVec.ofNat 32
      (s.countMatches table (s.tailBit s.snap.argId.toNat (k.val + 1)) (k.val + 1) s.cacheLen.toNat)

/-- REPORT's effect (44_recovery.md R114). -/
def State.identifiability (s : State) : State := { s with report := s.reportWords }

/-- REPORT (44_recovery.md R114). -/
def execReport (s : State) : Outcome := runChecked (reportChecks s) State.identifiability s

end Sys2Proof.Machine
end

