-- ==== Sys2Proof/Machine/System.lean ====
section
/-! DEFINITION. The system command NOP (45_system.md R116). -/

namespace Sys2Proof.Machine

/-- NOP (45_system.md R116): nothing besides completion. -/
def execNop (s : State) : Outcome := succeed s

end Sys2Proof.Machine
end

