-- ==== Sys2Proof/Machine/Dispatch.lean ====
section
/-! DEFINITION. The meaning of every command, completion included (30_encoding.md R76; log 11). -/

namespace Sys2Proof.Machine

def exec (i : Instr) (s : State) : Host.Outcome State Fault Refusal :=
  match i with
  | .nop => Sys2Proof.Machine.execNop s
  | .xload => Sys2Proof.Machine.execXload s
  | .adv1 n => Sys2Proof.Machine.execAdv1 n s
  | .adv2 n => Sys2Proof.Machine.execAdv2 n s
  | .advj n => Sys2Proof.Machine.execAdvj n s
  | .gen => Sys2Proof.Machine.execGen s
  | .cinit => Sys2Proof.Machine.execCinit s
  | .genid => Sys2Proof.Machine.execGenid s
  | .build => Sys2Proof.Machine.execBuild s
  | .commit => Sys2Proof.Machine.execCommit s
  | .inval => Sys2Proof.Machine.execInval s
  | .find => Sys2Proof.Machine.execFind s
  | .report => Sys2Proof.Machine.execReport s

end Sys2Proof.Machine
end

