-- ==== Sys2Proof/Machine/Flags.lean ====
section
/-! DEFINITION. The status words: STATUS, CTRL and RES_BITS as the host reads them, the effects of the host's writes to
STATUS and CTRL's plain fields, and the interrupt output. -/

namespace Sys2Proof.Machine

/-- The 2-bit code of CACHE_STATE (10_state.md R35). -/
def CacheState.code : CacheState → Nat
  | .empty => 0
  | .valid => 1
  | .stale => 2

/-- The 4-bit code of ERR (60_exceptions.md R120). -/
def ErrCode.code : ErrCode → Nat
  | .noError => 0
  | .invalidParameter => 1
  | .cacheMismatch => 2
  | .cacheUnavailable => 3
  | .illegalCommand => 4

/-- STATUS as read (10_state.md R35): BUSY[0], DONE[1], CMD_LOST[2], ACC_ERR[3], CACHE_STATE[5:4], ERR[11:8], others 0. -/
def State.statusWord (s : State) : Word :=
  bitAt s.busy 0 ||| bitAt s.done 1 ||| bitAt s.cmdLost 2 ||| bitAt s.accErr 3 |||
    BitVec.ofNat 32 (s.cacheState.code <<< 4) ||| BitVec.ofNat 32 (s.err.code <<< 8)

/-- A write to STATUS: bits [3:1] are W1C, all other bits are ignored (10_state.md R35). -/
def State.writeStatus (s : State) (v : Word) : State :=
  { s with
    done := s.done && !v.getLsbD 1
    cmdLost := s.cmdLost && !v.getLsbD 2
    accErr := s.accErr && !v.getLsbD 3 }

/-- CTRL as read (10_state.md R34): IE[0], WIN_EN[1]; SRST and the reserved bits read 0. -/
def State.ctrlWord (s : State) : Word := bitAt s.ie 0 ||| bitAt s.winEn 1

/-- A write to CTRL with bit 31 clear (10_state.md R34). -/
def State.writeCtrl (s : State) (v : Word) : State := { s with ie := v.getLsbD 0, winEn := v.getLsbD 1 }

/-- RES_BITS as read (10_state.md R41): `X1.last`, `X2.last` and their XOR. -/
def State.resBits (s : State) : Word :=
  bitAt s.x1.last 0 ||| bitAt s.x2.last 1 ||| bitAt (s.x1.last ^^ s.x2.last) 2

/-- The interrupt output: `IRQ = CTRL.IE AND STATUS.DONE` at all times (60_exceptions.md R127). -/
def State.irq (s : State) : Bool := s.ie && s.done

end Sys2Proof.Machine
end

