-- ==== Sys2Proof/Machine/RegisterMap.lean ====
section
/-! DEFINITION. The register map: names, offsets and access classes (10_state.md R29). -/

namespace Sys2Proof.Machine

/-- The host-visible registers and word windows (10_state.md R29); the windows at their largest legal sizes, of which a
realisation has the words that are `listed`. -/
inductive Reg where
  | id | param0 | param1 | param2
  | ctrl | status | cmd | outLen
  | argCinit | argLen | argId | argSps | argSlot | argSym
  | winCap | queryLen | queryLo | queryHi
  | resCinit | resCount | resBits
  | cacheLen | cacheSel | cacheElen
  | resultIdx | resultData
  | winSel | winIdx | winData | winLen
  | x1State | x1Ptr | x1Cnt
  | x2State | x2Ptr | x2Cnt
  | report (k : Fin 64)
  | cacheWin (w : Fin 2048)
  | outWin (w : Fin 2048)
deriving DecidableEq, Repr

/-- The single registers with their offsets (10_state.md R29). -/
def registerTable : List (Nat × Reg) :=
  [(0x000, .id), (0x004, .param0), (0x008, .param1), (0x00C, .param2), (0x010, .ctrl), (0x014, .status),
    (0x018, .cmd), (0x01C, .outLen), (0x020, .argCinit), (0x024, .argLen), (0x028, .argId), (0x02C, .argSps),
    (0x030, .argSlot), (0x034, .argSym), (0x038, .winCap), (0x03C, .queryLen), (0x040, .queryLo), (0x044, .queryHi)] ++
  [(0x048, .resCinit), (0x04C, .resCount), (0x050, .resBits), (0x054, .cacheLen), (0x058, .cacheSel),
    (0x05C, .cacheElen), (0x060, .resultIdx), (0x064, .resultData), (0x068, .winSel), (0x06C, .winIdx),
    (0x070, .winData), (0x074, .winLen), (0x080, .x1State), (0x084, .x1Ptr), (0x088, .x1Cnt), (0x090, .x2State),
    (0x094, .x2Ptr), (0x098, .x2Cnt)]

/-- The register at offset `a` with the largest legal sizes. The windows are REPORT at 0x100, CACHE_WIN at 0x2000 and OUT_WIN
at 0x4000, one word each 4 bytes; "with the largest legal sizes both end at 0x3FFC and 0x5FFC" (10_state.md R29). -/
def Reg.ofOffset (a : BitVec 16) : Option Reg :=
  let n := a.toNat
  if n % 4 ≠ 0 then none
  else if 0x100 ≤ n ∧ n < 0x200 then some (.report (Fin.ofNat 64 ((n - 0x100) / 4)))
  else if 0x2000 ≤ n ∧ n < 0x4000 then some (.cacheWin (Fin.ofNat 2048 ((n - 0x2000) / 4)))
  else if 0x4000 ≤ n ∧ n < 0x6000 then some (.outWin (Fin.ofNat 2048 ((n - 0x4000) / 4)))
  else Memory.find? registerTable n

/-- Whether R29 lists the register at the sizes `z`: `CACHE_WIN[w]` for `w < CW` and `OUT_WIN[w]` for `w < GW` (20_memory.md
R56). -/
def Reg.listed (z : Config.Sizes) : Reg → Bool
  | .cacheWin w => decide (w.val < z.cacheWords)
  | .outWin w => decide (w.val < z.genWords)
  | .id | .param0 | .param1 | .param2 | .ctrl | .status | .cmd | .outLen | .argCinit | .argLen | .argId | .argSps
  | .argSlot | .argSym | .winCap | .queryLen | .queryLo | .queryHi | .resCinit | .resCount | .resBits | .cacheLen
  | .cacheSel | .cacheElen | .resultIdx | .resultData | .winSel | .winIdx | .winData | .winLen | .x1State | .x1Ptr
  | .x1Cnt | .x2State | .x2Ptr | .x2Cnt | .report _ => true

/-- The register at offset `a`; `none` if R29 does not list the offset at the sizes `z`. -/
def Reg.listedAt (z : Config.Sizes) (a : BitVec 16) : Option Reg := (Reg.ofOffset a).filter fun r => r.listed z

/-- The offset of a register (10_state.md R29). -/
def Reg.offset : Reg → BitVec 16
  | .id => 0x000#16
  | .param0 => 0x004#16
  | .param1 => 0x008#16
  | .param2 => 0x00C#16
  | .ctrl => 0x010#16
  | .status => 0x014#16
  | .cmd => 0x018#16
  | .outLen => 0x01C#16
  | .argCinit => 0x020#16
  | .argLen => 0x024#16
  | .argId => 0x028#16
  | .argSps => 0x02C#16
  | .argSlot => 0x030#16
  | .argSym => 0x034#16
  | .winCap => 0x038#16
  | .queryLen => 0x03C#16
  | .queryLo => 0x040#16
  | .queryHi => 0x044#16
  | .resCinit => 0x048#16
  | .resCount => 0x04C#16
  | .resBits => 0x050#16
  | .cacheLen => 0x054#16
  | .cacheSel => 0x058#16
  | .cacheElen => 0x05C#16
  | .resultIdx => 0x060#16
  | .resultData => 0x064#16
  | .winSel => 0x068#16
  | .winIdx => 0x06C#16
  | .winData => 0x070#16
  | .winLen => 0x074#16
  | .x1State => 0x080#16
  | .x1Ptr => 0x084#16
  | .x1Cnt => 0x088#16
  | .x2State => 0x090#16
  | .x2Ptr => 0x094#16
  | .x2Cnt => 0x098#16
  | .report k => BitVec.ofNat 16 (0x100 + 4 * k.val)
  | .cacheWin w => BitVec.ofNat 16 (0x2000 + 4 * w.val)
  | .outWin w => BitVec.ofNat 16 (0x4000 + 4 * w.val)

/-- Class RO: a write is dropped and sets ACC_ERR (20_memory.md R57). STATUS and CMD are not RO (R54). -/
def Reg.isRO : Reg → Bool
  | .id | .param0 | .param1 | .param2 | .outLen | .resCinit | .resCount | .resBits | .cacheLen | .resultData
  | .winData | .winLen | .x1State | .x1Ptr | .x1Cnt | .x2State | .x2Ptr | .x2Cnt | .report _ | .outWin _ => true
  | .ctrl | .status | .cmd | .argCinit | .argLen | .argId | .argSps | .argSlot | .argSym | .winCap | .queryLen
  | .queryLo | .queryHi | .cacheSel | .cacheElen | .resultIdx | .winSel | .winIdx | .cacheWin _ => false

/-- Class BR: refused while BUSY = 1 (20_memory.md R58). -/
def Reg.isBR : Reg → Bool
  | .outLen | .resCinit | .resCount | .resBits | .cacheElen | .resultData | .winData | .winLen | .x1State | .x1Ptr
  | .x1Cnt | .x2State | .x2Ptr | .x2Cnt | .report _ | .cacheWin _ | .outWin _ => true
  | .id | .param0 | .param1 | .param2 | .ctrl | .status | .cmd | .argCinit | .argLen | .argId | .argSps | .argSlot
  | .argSym | .winCap | .queryLen | .queryLo | .queryHi | .cacheLen | .cacheSel | .resultIdx | .winSel
  | .winIdx => false

/-- The block decodes only the offset of a host byte address; an address outside its 64 KiB does not reach it
(20_memory.md R51, R52; log 9). -/
def offsetOf (hostAddr : Nat) : Option (BitVec 16) :=
  if Config.pBase ≤ hostAddr ∧ hostAddr < Config.pBase + 65536 then some (BitVec.ofNat 16 (hostAddr - Config.pBase))
  else none

end Sys2Proof.Machine
end

