-- ==== Sys2Proof/Machine/Reset.lean ====
section
/-! DEFINITION. Hardware reset, soft reset and reset while busy (70_reset_and_hazards.md R138 to R140). -/

namespace Sys2Proof.Machine

/-- The memory cells that the accepted command could have written become unspecified: OUTBUF bits `0..L` for GEN and GENID,
every entry's bits `0..N` for BUILD, RESULT words for FIND. A command that would raise an error could have written none
(70_reset_and_hazards.md R140, 93_implementation_defined.md U2; log 12). -/
def State.abandon (s : State) : State :=
  match decode s.snap.cmd with
  | .illegal _ => s
  | .ok i =>
    let len := s.snap.argLen.toNat
    let loseOutput : State :=
      { s with outbuf := s.outbuf.forget len, outbufMark := s.outbufMark.renew len s.freeCount }
    match i with
    | .gen => if firstError (genChecks s.sizes s.snap) = .noError then loseOutput else s
    | .genid => if firstError (genidChecks s.sizes s.snap) = .noError then loseOutput else s
    | .build =>
      if firstError (buildChecks s.sizes s.snap) = .noError then
        { s with
          cache := Memory.mapContents CacheEntry.blank (fun e => { e with cells := e.cells.forget len }) s.cache
          cacheMark := s.cacheMark.renew len s.freeCount }
      else s
    | .find =>
      if firstError (findChecks s) = .noError then { s with result := [], resultMark := s.freeCount } else s
    | .nop => s
    | .xload => s
    | .adv1 _ => s
    | .adv2 _ => s
    | .advj _ => s
    | .cinit => s
    | .commit => s
    | .inval => s
    | .report => s

/-- Hardware reset: every state element takes its reset value and the unspecified ones a new free value
(70_reset_and_hazards.md R138; logs 3, 4, 5). The sizes, the events still to come and the host's read value are not state of
the block and stay. -/
def State.hardReset (s : State) : State :=
  { State.reset with
    sizes := s.sizes
    outbufMark := ⟨s.freeCount, []⟩
    cacheMark := ⟨s.freeCount, []⟩
    resultMark := s.freeCount
    snap := .unspecified s.freeCount
    freeCount := s.freeCount + 1
    pending := s.pending
    readData := s.readData }

/-- Soft reset: the hardware reset, but the OUTBUF bits, CACHE bits and RESULT words keep their values, save those an
aborted command could have written (70_reset_and_hazards.md R139, R140). -/
def State.softReset (s : State) : State :=
  let kept := if s.busy then s.abandon else s
  { State.reset with
    sizes := s.sizes
    outbuf := kept.outbuf
    outbufMark := kept.outbufMark
    cache := Memory.mapContents CacheEntry.blank (fun e => { e with elen := 0#32 }) kept.cache
    cacheMark := kept.cacheMark
    result := kept.result
    resultMark := kept.resultMark
    snap := .unspecified s.freeCount
    freeCount := s.freeCount + 1
    pending := s.pending
    readData := s.readData }

end Sys2Proof.Machine
end

