-- ==== Sys2Proof/Machine/HostPort.lean ====
section
/-! DEFINITION. The host port: what a read returns and what a write does (10_state.md R30 to R50; 20_memory.md R53 to
R59). -/

namespace Sys2Proof.Machine

/-- X1_STATE and X2_STATE: bit `j` is `seq(j)` for `j < 31`, bit 31 is 0 (10_state.md R49). -/
def Lfsr.stateWord (u : Lfsr) : Word := wordOfBits fun j => decide (j < 31) && u.seq j

/-- CACHE_WIN[w] of the selected entry (10_state.md R45). -/
def State.cacheWinWord (s : State) (w : Nat) : Word :=
  let id := s.cacheSel.toNat
  let e := s.cacheEntry id
  wordOfBits fun j => decide (32 * w + j < min e.elen.toNat s.sizes.cacheMaxBits) && s.entryBit e id (32 * w + j)

/-- OUT_WIN[w] (10_state.md R46). -/
def State.outWinWord (s : State) (w : Nat) : Word :=
  wordOfBits fun j => decide (32 * w + j < s.outLen.toNat) && s.outBit (32 * w + j)

/-- RESULT_DATA (10_state.md R47). -/
def State.resultData (s : State) : Word :=
  if s.resultIdx.toNat < s.resCount.toNat then s.resultWord s.resultIdx.toNat else 0#32

/-- The window WIN_SEL selects (10_state.md R48). -/
def State.selectedWindow (s : State) : List Bool := if s.winSel then s.x2.win else s.x1.win

/-- `readvalue(a)`: the register's rule in 10_state.md; it has no side effect (20_memory.md R53). -/
def State.readValue (s : State) : Reg → Word
  | .id => Config.idValue
  | .param0 => BitVec.ofNat 32 (Config.discard <<< 16 ||| Config.nc)
  | .param1 => BitVec.ofNat 32 (s.sizes.cacheWords <<< 16 ||| s.sizes.genWords)
  | .param2 => BitVec.ofNat 32 (Config.lfsrLen <<< 24 ||| Config.queryMax <<< 16 ||| s.sizes.winCapMax)
  | .ctrl => s.ctrlWord
  | .status => s.statusWord
  | .cmd => s.lastCmd
  | .outLen => s.outLen
  | .argCinit => s.argCinit
  | .argLen => s.argLen
  | .argId => s.argId
  | .argSps => s.argSps
  | .argSlot => s.argSlot
  | .argSym => s.argSym
  | .winCap => s.winCap
  | .queryLen => s.queryLen
  | .queryLo => s.queryLo
  | .queryHi => s.queryHi
  | .resCinit => s.resCinit
  | .resCount => s.resCount
  | .resBits => s.resBits
  | .cacheLen => s.cacheLen
  | .cacheSel => s.cacheSel.setWidth 32
  | .cacheElen => s.elen s.cacheSel.toNat
  | .resultIdx => s.resultIdx.setWidth 32
  | .resultData => s.resultData
  | .winSel => bitAt s.winSel 0
  | .winIdx => s.winIdx.setWidth 32
  | .winData => bitAt (s.selectedWindow.getD s.winIdx.toNat false) 0
  | .winLen => BitVec.ofNat 32 ((s.x2.win.length % 65536) <<< 16 ||| s.x1.win.length % 65536)
  | .x1State => s.x1.stateWord
  | .x1Ptr => BitVec.ofNat 32 s.x1.ptr.val
  | .x1Cnt => s.x1.cnt
  | .x2State => s.x2.stateWord
  | .x2Ptr => BitVec.ofNat 32 s.x2.ptr.val
  | .x2Cnt => s.x2.cnt
  | .report k => s.report[k]
  | .cacheWin w => s.cacheWinWord w.val
  | .outWin w => s.outWinWord w.val

/-- A write to CTRL: bit 31 performs a soft reset and discards the rest (10_state.md R34). -/
def State.controlWrite (s : State) (v : Word) : State := if v.getLsbD 31 then s.softReset else s.writeCtrl v

/-- A write to CACHE_ELEN (10_state.md R44, 43_seed_cache.md R104). -/
def State.writeElen (s : State) (v : Word) : State :=
  { s.setCacheEntry s.cacheSel.toNat { s.cacheEntry s.cacheSel.toNat with elen := v } with cacheState := .empty }

/-- A write to CACHE_WIN[w]: all 32 cells, regardless of `elen` (10_state.md R45, 43_seed_cache.md R104). -/
def State.writeCacheWin (s : State) (w : Nat) (v : Word) : State :=
  let e := s.cacheEntry s.cacheSel.toNat
  { s.setCacheEntry s.cacheSel.toNat { e with cells := e.cells.store (32 * w) 32 v.toNat } with cacheState := .empty }

/-- `writeeffect(a, v)`: the register's rule in 10_state.md. A register of class RO is never written (20_memory.md R57);
its arm leaves the state as it is. -/
def State.writeEffect (s : State) (r : Reg) (v : Word) : State :=
  match r with
  | .ctrl => s.controlWrite v
  | .status => s.writeStatus v
  | .cmd => s.issue v
  | .argCinit => { s with argCinit := v }
  | .argLen => { s with argLen := v }
  | .argId => { s with argId := v }
  | .argSps => { s with argSps := v }
  | .argSlot => { s with argSlot := v }
  | .argSym => { s with argSym := v }
  | .winCap => { s with winCap := v }
  | .queryLen => { s with queryLen := v }
  | .queryLo => { s with queryLo := v }
  | .queryHi => { s with queryHi := v }
  | .cacheSel => { s with cacheSel := v.extractLsb' 0 16 }
  | .cacheElen => s.writeElen v
  | .resultIdx => { s with resultIdx := v.extractLsb' 0 16 }
  | .winSel => { s with winSel := v.getLsbD 0 }
  | .winIdx => { s with winIdx := v.extractLsb' 0 16 }
  | .cacheWin w => s.writeCacheWin w.val v
  | .id | .param0 | .param1 | .param2 | .outLen | .resCinit | .resCount | .resBits | .cacheLen | .resultData
  | .winData | .winLen | .x1State | .x1Ptr | .x1Cnt | .x2State | .x2Ptr | .x2Cnt | .report _ | .outWin _ => s

/-- The register that an access of `size` bytes at `a` reaches: the checks common to `MemRead` and `MemWrite`, for width,
alignment, a listed offset and the busy refusal (20_memory.md R53 to R56, R58). -/
def State.reaches (s : State) (a : BitVec 16) (size : Nat) : Option Reg :=
  if size ≠ 4 ∨ a.toNat % 4 ≠ 0 then none
  else
    match Reg.listedAt s.sizes a with
    | none => none
    | some r => if r.isBR && s.busy then none else some r

/-- `MemRead(a, size)` (20_memory.md R53): the returned value goes to the host. -/
def State.hostRead (s : State) (a : BitVec 16) (size : Nat) : State :=
  match s.reaches a size with
  | none => { s.accessError with readData := some 0#32 }
  | some r => { s with readData := some (s.readValue r) }

/-- `MemWrite(a, size, v)` (20_memory.md R54). -/
def State.hostWrite (s : State) (a : BitVec 16) (size : Nat) (v : Word) : State :=
  match s.reaches a size with
  | none => s.accessError
  | some r => if r.isRO then s.accessError else s.writeEffect r v

end Sys2Proof.Machine
end

