-- ==== Sys2Proof/Machine/Engine.lean ====
section
/-! DEFINITION. The engine's step and the events of the host and of the reset input (30_encoding.md R76,
60_exceptions.md R126). -/

namespace Sys2Proof.Machine

/-- `complete()`: run the accepted command, decoded from `S.CMD`; an illegal word completes with ILLEGAL_COMMAND and no
other effect (30_encoding.md R73, R74, R76). -/
def complete (s : State) : Outcome :=
  match decode s.snap.cmd with
  | .ok i => exec i s
  | .illegal _ => raiseError .illegalCommand s

/-- The engine's turn: its one step is enabled exactly when BUSY = 1; otherwise the block is quiescent
(60_exceptions.md R126, 70_reset_and_hazards.md R147). -/
def engineTurn (s : State) : Outcome := if s.busy then complete s else .next s

/-- One event. -/
def runEvent (e : Event) (s : State) : Outcome :=
  match e with
  | .engine => engineTurn s
  | .read a size => .next (s.hostRead a size)
  | .write a size v => .next (s.hostWrite a size v)
  | .hardReset => .next s.hardReset

/-- A command word placed where the engine finds its next command: accepted now, and the engine has the next turn
(log 13). -/
def State.placeCommand (s : State) (v : Word) : State :=
  { s.accept v with pending := .engine :: s.pending }

end Sys2Proof.Machine
end

