-- ==== Sys2Proof/Machine/Step.lean ====
section
/-! DEFINITION. One step of the block: the next event, or the engine's turn when none is left (log 2). -/

namespace Sys2Proof.Machine

/-- One step. With no event to come the engine has its turn, which is the weak fairness of 60_exceptions.md R126. -/
def step (s : State) : Host.Outcome State Fault Refusal :=
  match s.pending with
  | [] => engineTurn s
  | e :: rest => runEvent e { s with pending := rest }

/-- `s` with the command word `w` accepted and the engine to move next, so that the very next step runs it (log 13). -/
def State.withFetchWord (s : State) (nbits w : Nat) : State := s.placeCommand (BitVec.ofNat 32 (w % 2 ^ nbits))

end Sys2Proof.Machine
end

