-- ==== Sys2Proof/Machine/HostProgram.lean ====
section
/-! DEFINITION. Host programs as events: the statements and pseudo-instructions of 30_encoding.md R77 and R78, and the host
procedures persist and load (43_seed_cache.md R108, R109). -/

namespace Sys2Proof.Machine

/-- `wr NAME, v` (30_encoding.md R77). -/
def wr (r : Reg) (v : Word) : Event := .write r.offset 4 v

/-- `rd NAME`, and to the block also `expect NAME, v` (30_encoding.md R77). -/
def rd (r : Reg) : Event := .read r.offset 4

/-- `MNEMONIC n`: `wr CMD, enc(MNEMONIC, n)` (30_encoding.md R77). -/
def cmd (i : Instr) : Event := wr .cmd (encode i)

/-- `wait` (30_encoding.md R78): the host polls STATUS; the engine takes its turn after `polls` polls that read BUSY = 1,
and one more poll reads BUSY = 0. The number of polls is the scheduler's (93_implementation_defined.md U4). -/
def wait (polls : Nat) : List Event := List.replicate polls (rd .status) ++ [.engine, rd .status]

/-- `run MNEMONIC [n]` (30_encoding.md R78). -/
def run (i : Instr) (polls : Nat) : List Event := cmd i :: wait polls

/-- `ack`: clear DONE (30_encoding.md R78). -/
def ack : Event := wr .status 0x2#32

/-- `clrerr`: clear CMD_LOST and ACC_ERR (30_encoding.md R78). -/
def clrerr : Event := wr .status 0xC#32

/-- `srst` (30_encoding.md R78). -/
def srst : Event := wr .ctrl 0x80000000#32

/-- `setq lo, hi, len` (30_encoding.md R78). -/
def setq (lo hi len : Word) : List Event := [wr .queryLo lo, wr .queryHi hi, wr .queryLen len]

/-- Persist (43_seed_cache.md R108): read CACHE_LEN and, for each of the first `ids` identifiers, the first `words` words of
its entry (the whole cache is 65536 identifiers and `ceil(CACHE_LEN / 32)` words). -/
def persist (ids words : Nat) : List Event :=
  rd .cacheLen :: (List.range ids).flatMap fun id =>
    wr .cacheSel (BitVec.ofNat 32 id) :: (List.range words).map fun w => rd (.cacheWin (Fin.ofNat 2048 w))

/-- Loading one entry (43_seed_cache.md R109): its recorded length and its words. -/
def loadEntry (id : Nat) (len : Word) (words : List Word) : List Event :=
  wr .cacheSel (BitVec.ofNat 32 id) :: wr .cacheElen len ::
    (List.range' 0 words.length).zipWith (fun w v => wr (.cacheWin (Fin.ofNat 2048 w)) v) words

/-- Load (43_seed_cache.md R109): every entry, then COMMIT with the requested length. -/
def load (entries : List (Word × List Word)) (request : Word) : List Event :=
  ((List.range' 0 entries.length).zipWith (fun id e => loadEntry id e.1 e.2) entries).flatten ++
    [wr .argLen request, cmd .commit]

end Sys2Proof.Machine
end

