-- ==== Sys2Proof/Safety.lean ====
section
/-! DEFINITION. What a safe run of the block is: every step answers a next state (93_implementation_defined.md, section 1),
and the invariant that every step keeps. -/

namespace Sys2Proof.Machine

/-- Every number of a mark was drawn from the free-value counter (log 4). -/
def FreeMark.drawnBelow (m : FreeMark) (n : Nat) : Prop := m.base < n ∧ ∀ p ∈ m.later, p.2 < n

/-- The invariant of the block. -/
structure Inv (s : State) : Prop where
  /-- OUTBUF is canonical (log 6) -/
  outbuf_wf : s.outbuf.wf
  /-- CACHE is canonical (log 6) -/
  cache_wf : cacheWf s.cache
  /-- RESULT is canonical and has 65536 words (10_state.md R21, log 6) -/
  result_wf : s.result.sorted ∧ ∀ e ∈ s.result, e.1 < Config.numIds
  /-- `0 <= OUT_LEN <= P_GEN_MAX_BITS` (10_state.md R37) -/
  outLen_le : s.outLen.toNat ≤ s.sizes.genMaxBits
  /-- no unspecified bit of OUTBUF is visible (10_state.md R19) -/
  outbuf_visible : ∀ i, i < s.outLen.toNat → s.outbuf.known.getLsbD i = true
  /-- RES_CINIT's bit 31 is always 0 (10_state.md R41) -/
  resCinit_bit31 : s.resCinit.getLsbD 31 = false
  /-- RES_COUNT is in `0..65536` (10_state.md R41) -/
  resCount_le : s.resCount.toNat ≤ Config.numIds
  /-- no unspecified word of RESULT is visible (10_state.md R21) -/
  result_visible : ∀ k, k < s.resCount.toNat → (Memory.find? s.result k).isSome = true
  /-- CACHE_LEN never exceeds P_CACHE_MAX_BITS (43_seed_cache.md R105, R106) -/
  cacheLen_le : s.cacheLen.toNat ≤ s.sizes.cacheMaxBits
  /-- a VALID cache has every recorded length equal to CACHE_LEN (10_state.md R20) -/
  valid_lengths : s.cacheState = .valid → ∀ id, id < Config.numIds → s.elen id = s.cacheLen
  /-- X1 never holds all zeros (40_lfsr.md R85) -/
  x1_nonzero : s.x1.phys ≠ 0#31
  /-- the windows stay bounded (10_state.md R17, R39) -/
  windows_le : s.x1.win.length ≤ s.sizes.winCapMax ∧ s.x2.win.length ≤ s.sizes.winCapMax
  /-- free values are numbered from the counter (log 4) -/
  marks_drawn : s.outbufMark.drawnBelow s.freeCount ∧ s.cacheMark.drawnBelow s.freeCount ∧ s.resultMark < s.freeCount
  /-- no cell past OUTBUF's size is ever specified (10_state.md R19) -/
  outbuf_size : ∀ i, s.sizes.genMaxBits ≤ i → s.outbuf.known.getLsbD i = false
  /-- no cell past a cache entry's size is ever specified (10_state.md R20) -/
  cache_size : ∀ id i, s.sizes.cacheMaxBits ≤ i → (s.cacheEntry id).cells.known.getLsbD i = false

/-- The block takes a next state: the only outcome a safe run knows. -/
def SafeStep (s : State) : Prop := ∃ t, step s = .next t

/-- The states that steps lead to from a state. -/
inductive Reaches : State → State → Prop where
  | refl (s : State) : Reaches s s
  | step {s t u : State} (run : Reaches s t) (next : Sys2Proof.Machine.step t = .next u) : Reaches s u

/-- The window capacity is legal if recording is on (40_lfsr.md R84). -/
def Snapshot.WindowLegal (S : Snapshot) (z : Config.Sizes) : Prop :=
  S.winEn = true → 1 ≤ S.winCap.toNat ∧ S.winCap.toNat ≤ z.winCapMax

/-- `t` is `s` after a command completed with code `e`, as far as the completion fields go (30_encoding.md R76). -/
def CompletedWith (e : ErrCode) (t : State) : Prop := t.err = e ∧ t.busy = false ∧ t.done = true

/-- The registers the snapshot copies, CTRL aside (10_state.md R24). -/
def operandRegs : List Reg :=
  [.argCinit, .argLen, .argId, .argSps, .argSlot, .argSym, .winCap, .queryLen, .queryLo, .queryHi]

/-- Every single register with the value it reads after a reset (70_reset_and_hazards.md R138); PARAM1 and PARAM2 show the
sizes and stand in the statements. -/
def resetReads : List (Reg × Word) :=
  [(.id, 0x47333101#32), (.param0, 0x06210640#32), (.ctrl, 0#32), (.status, 0#32), (.cmd, 0#32), (.outLen, 0#32),
    (.argCinit, 0#32), (.argLen, 0#32), (.argId, 0#32),
    (.argSps, 14#32), (.argSlot, 4#32), (.argSym, 2#32), (.winCap, 256#32), (.queryLen, 0#32), (.queryLo, 0#32),
    (.queryHi, 0#32)] ++
  [(.resCinit, 0#32), (.resCount, 0#32), (.resBits, 0#32), (.cacheLen, 0#32), (.cacheSel, 0#32), (.cacheElen, 0#32),
    (.resultIdx, 0#32), (.resultData, 0#32), (.winSel, 0#32), (.winIdx, 0#32), (.winData, 0#32), (.winLen, 0#32),
    (.x1State, 1#32), (.x1Ptr, 0#32), (.x1Cnt, 0#32), (.x2State, 0#32), (.x2Ptr, 0#32), (.x2Cnt, 0#32)]

end Sys2Proof.Machine
end

