-- ==== Sys2Proof/Certificates/Slice0/Obligations.lean ====
section
/-! DEFINITION. The statements for the provers. -/

open Sys2Proof Sys2Proof.Machine

/-! Encoding. -/

/-- Words written out from the fields of 30_encoding.md R70 and the opcodes of R72. -/
def Obligations.CommandWordsDecode : Prop :=
  decode 0b00000000000000000000000000000000#32 = .ok .nop ∧
  decode 0b11111111111111110000000000000010#32 = .ok (.adv1 65535) ∧
  decode 0b00000000000000000000000000000101#32 = .ok .gen ∧
  decode 0b00000000000000000000000000000111#32 = .ok .genid ∧
  decode 0b00000000000000000000000000001001#32 = .ok .commit ∧
  decode 0b00000000000000000000000000001011#32 = .ok .find ∧
  decode 0b00000000000000010000000000000101#32 = .illegal .countNotAllowed

/-- 30_encoding.md R74: the three tests, what decode returns, and that they come before every operand check. -/
def Obligations.DecodeFollowsFieldTests : Prop :=
  (∀ w : Word,
    let op := w.toNat % 256
    let rsv := w.toNat / 256 % 256
    let cnt := w.toNat / 65536
    (rsv ≠ 0 → ∃ why, decode w = .illegal why) ∧
    (rsv = 0 → 0x0C < op → ∃ why, decode w = .illegal why) ∧
    (rsv = 0 → op ≤ 0x0C → op ≠ 2 ∧ op ≠ 3 ∧ op ≠ 4 → cnt ≠ 0 → ∃ why, decode w = .illegal why) ∧
    (rsv = 0 → op ≤ 0x0C → (op = 2 ∨ op = 3 ∨ op = 4) ∨ cnt = 0 →
      ∃ i, decode w = .ok i ∧ i.opcode = op ∧ i.count = cnt)) ∧
  ∀ (s : State) (why : IllegalWord), decode s.snap.cmd = .illegal why → complete s = .next (s.finish .illegalCommand)

/-- 30_encoding.md R73: which words are illegal, that they are accepted like any other and complete with ILLEGAL_COMMAND and
no other effect. -/
def Obligations.IllegalWordsHaveNoOtherEffect : Prop :=
  (∀ w : Word,
    (∃ why, decode w = .illegal why) ↔
      (0x0D ≤ w.toNat % 256 ∨ w.toNat / 256 % 256 ≠ 0 ∨
        (w.toNat % 256 ≠ 2 ∧ w.toNat % 256 ≠ 3 ∧ w.toNat % 256 ≠ 4 ∧ w.toNat / 65536 ≠ 0))) ∧
  (∀ (s : State) (w : Word), s.busy = false → s.hostWrite Reg.cmd.offset 4 w = s.accept w) ∧
  ∀ (s : State) (why : IllegalWord), s.busy = true → decode s.snap.cmd = .illegal why →
    engineTurn s = .next { s with err := .illegalCommand, busy := false, done := true }

/-- Decoding an encoded well-formed command gives it back, with its count (30_encoding.md section 1). -/
def Obligations.DecodeInvertsEncode : Prop := ∀ i : Instr, i.wf = true → decode (encode i) = .ok i

/-- A word that decodes is the encoding of a well-formed command: no bit of a legal word is without meaning. -/
def Obligations.EncodeInvertsDecode : Prop :=
  ∀ (w : Word) (i : Instr), decode w = .ok i → i.wf = true ∧ encode i = w

/-! The step. -/

/-- A step of a busy block whose accepted word decodes runs that command, whether the engine's turn is the next event or no
event is left (the event list is the model's, log 2). The clause about `withFetchWord`, the model's stand-in for an accepted
CMD write to an idle block, is the model's too (DESIGN CHOICE, log 13): the next step runs the placed word. -/
def Obligations.StepRunsDecodedCommand : Prop :=
  (∀ (s : State) (i : Instr), s.busy = true → decode s.snap.cmd = .ok i → s.pending = [] → step s = exec i s) ∧
  (∀ (s : State) (i : Instr) (rest : List Event), s.busy = true → decode s.snap.cmd = .ok i →
    s.pending = .engine :: rest → step s = exec i { s with pending := rest }) ∧
  (∀ (s : State) (i : Instr) (w : Word), s.busy = false → decode w = .ok i →
    step (s.withFetchWord 32 w.toNat) = exec i (s.accept w))

/-- The events of the host and of the reset input: each step performs the next one and nothing else (20_memory.md section 4). -/
def Obligations.StepPerformsHostEvents : Prop :=
  ∀ (s : State) (rest : List Event),
    (∀ a size, s.pending = .read a size :: rest → step s = .next ({ s with pending := rest }.hostRead a size)) ∧
    (∀ a size v, s.pending = .write a size v :: rest →
      step s = .next ({ s with pending := rest }.hostWrite a size v)) ∧
    (s.pending = .hardReset :: rest → step s = .next { s with pending := rest }.hardReset)

/-- No step faults and none is refused (93_implementation_defined.md, section 1). -/
def Obligations.EveryStepIsSafe : Prop := ∀ s : State, SafeStep s

/-- 70_reset_and_hazards.md R147: a quiescent block changes only by a host access or reset. -/
def Obligations.QuiescentBlockKeepsItsState : Prop :=
  ∀ s : State, s.busy = false →
    (s.pending = [] → step s = .next s) ∧
    (∀ rest, s.pending = .engine :: rest → step s = .next { s with pending := rest })

/-- Progress: after one step for each event to come and one more, no command is in flight (60_exceptions.md section 1, the
engine's weak fairness as the model's finite schedule realises it: DESIGN CHOICE, log 2). -/
def Obligations.EveryScheduleEndsQuiescent : Prop :=
  ∀ s : State, ∃ t : State,
    Host.Core.run Sys2Proof.core (s.pending.length + 1) s = .next t ∧ t.busy = false ∧ t.pending = []

/-! Completion. -/

/-- 60_exceptions.md R121: every command completes once, with or without error; CTRL keeps; the next command is accepted; ERR
changes only at a completion or a reset. -/
def Obligations.EveryCommandCompletes : Prop :=
  (∀ (i : Instr) (s : State), ∃ t, exec i s = .next t ∧ t.busy = false ∧ t.done = true ∧ t.ie = s.ie ∧
    t.winEn = s.winEn) ∧
  (∀ s : State, s.busy = true → ∃ t, engineTurn s = .next t ∧ t.busy = false ∧ t.done = true ∧ t.ie = s.ie ∧
    t.winEn = s.winEn ∧ engineTurn t = .next t ∧ ∀ v, t.issue v = t.accept v) ∧
  (∀ (s : State) (v : Word), (s.accept v).err = s.err) ∧
  (∀ (s : State) (a : BitVec 16) (size : Nat), (s.hostRead a size).err = s.err) ∧
  (∀ (s : State) (a : BitVec 16) (size : Nat) (v : Word),
    (s.hostWrite a size v).err = s.err ∨ (Reg.listedAt s.sizes a = some .ctrl ∧ v.getLsbD 31 = true))

/-- 60_exceptions.md R122: a command that raises an error changes nothing but ERR, BUSY and DONE, save COMMIT's
CACHE_MISMATCH, which also writes CACHE_LEN and sets STALE. -/
def Obligations.FailedCommandsHaveNoEffect : Prop :=
  (∀ (i : Instr) (s t : State), exec i s = .next t → t.err ≠ .noError →
    (¬(i = .commit ∧ t.err = .cacheMismatch) → t = { s with err := t.err, busy := false, done := true }) ∧
    (i = .commit → t.err = .cacheMismatch → t = { s with
      cacheLen := s.snap.argLen, cacheState := .stale, err := .cacheMismatch, busy := false, done := true })) ∧
  (∀ (s t : State) (why : IllegalWord), decode s.snap.cmd = .illegal why → complete s = .next t →
    t = { s with err := .illegalCommand, busy := false, done := true })

/-- 60_exceptions.md R123: the first error in the listed order is the one reported, for each command; host-access errors never
change ERR. -/
def Obligations.ErrorPriority : Prop :=
  (∀ (s : State) (why : IllegalWord), decode s.snap.cmd = .illegal why →
    complete s = .next (s.finish .illegalCommand)) ∧
  (∀ (s t : State),
    let S := s.snap
    let badWin := S.winEn = true ∧ ¬(1 ≤ S.winCap.toNat ∧ S.winCap.toNat ≤ s.sizes.winCapMax)
    let badId := 65535 < S.argId.toNat
    (∀ i, i = .nop ∨ i = .xload ∨ i = .inval → exec i s = .next t → t.err = .noError) ∧
    (∀ i n, i = .adv1 n ∨ i = .adv2 n ∨ i = .advj n → exec i s = .next t →
      (badWin → t.err = .invalidParameter) ∧ (¬badWin → t.err = .noError)) ∧
    (exec .gen s = .next t →
      (s.sizes.genMaxBits < S.argLen.toNat ∨ badWin → t.err = .invalidParameter) ∧
      (¬(s.sizes.genMaxBits < S.argLen.toNat ∨ badWin) → t.err = .noError)) ∧
    (exec .cinit s = .next t →
      (badId → t.err = .invalidParameter) ∧ (¬badId → t.err = .noError)) ∧
    (exec .genid s = .next t →
      (badId ∨ s.sizes.genMaxBits < S.argLen.toNat ∨ badWin → t.err = .invalidParameter) ∧
      (¬(badId ∨ s.sizes.genMaxBits < S.argLen.toNat ∨ badWin) → t.err = .noError)) ∧
    (exec .build s = .next t →
      (s.sizes.cacheMaxBits < S.argLen.toNat ∨ badWin → t.err = .invalidParameter) ∧
      (¬(s.sizes.cacheMaxBits < S.argLen.toNat ∨ badWin) → t.err = .noError)) ∧
    (exec .commit s = .next t →
      (s.sizes.cacheMaxBits < S.argLen.toNat → t.err = .invalidParameter) ∧
      (¬s.sizes.cacheMaxBits < S.argLen.toNat → (∃ id, id < 65536 ∧ s.elen id ≠ S.argLen) → t.err = .cacheMismatch) ∧
      (¬s.sizes.cacheMaxBits < S.argLen.toNat → (∀ id, id < 65536 → s.elen id = S.argLen) → t.err = .noError)) ∧
    (exec .find s = .next t →
      (S.queryLen.toNat = 0 ∨ 64 < S.queryLen.toNat → t.err = .invalidParameter) ∧
      (¬(S.queryLen.toNat = 0 ∨ 64 < S.queryLen.toNat) →
        (s.cacheState = .empty → t.err = .cacheUnavailable) ∧ (s.cacheState = .stale → t.err = .cacheMismatch) ∧
        (s.cacheState = .valid → t.err = .noError))) ∧
    (exec .report s = .next t →
      (badId → t.err = .invalidParameter) ∧
      (¬badId →
        (s.cacheState = .empty → t.err = .cacheUnavailable) ∧ (s.cacheState = .stale → t.err = .cacheMismatch) ∧
        (s.cacheState = .valid →
          (s.cacheLen.toNat < 64 → t.err = .invalidParameter) ∧ (¬s.cacheLen.toNat < 64 → t.err = .noError))))) ∧
  (∀ (s : State) (a : BitVec 16) (size : Nat) (v : Word),
    (s.hostRead a size).err = s.err ∧ (s.reaches a size = none → (s.hostRead a size).accErr = true) ∧
    (s.reaches a size = none ∨ (∃ r, s.reaches a size = some r ∧ r.isRO = true) →
      (s.hostWrite a size v).err = s.err ∧ (s.hostWrite a size v).accErr = true) ∧
    (s.busy = true → (s.hostWrite Reg.cmd.offset 4 v).err = s.err ∧ (s.hostWrite Reg.cmd.offset 4 v).cmdLost = true))

/-- NOP does nothing besides completion (45_system.md, NOP). -/
def Obligations.NopOnlyCompletes : Prop :=
  ∀ s : State, exec .nop s = .next { s with err := .noError, busy := false, done := true }

/-- XLOAD loads both registers, clears both windows and changes nothing else (40_lfsr.md section 2, XLOAD). -/
def Obligations.XloadLoadsBothRegisters : Prop :=
  ∀ s : State, ∃ t, exec .xload s = .next t ∧ CompletedWith .noError t ∧
    (∀ j, j < 31 → t.x1.seq j = decide (j = 0) ∧ t.x2.seq j = s.snap.argCinit.getLsbD j) ∧
    t.x1.ptr = 0 ∧ t.x2.ptr = 0 ∧ t.x1.cnt = 0#32 ∧ t.x2.cnt = 0#32 ∧ t.x1.last = false ∧ t.x2.last = false ∧
    t.x1.win = [] ∧ t.x2.win = [] ∧ t.resBits = 0#32 ∧
    { t with x1 := s.x1, x2 := s.x2, err := s.err, busy := s.busy, done := s.done } = s

/-- ADV1 n advances X1 along its recurrence and changes nothing else (40_lfsr.md section 2, ADV1): for every continuation `x`
of the unit's logical view, the view moves to `x(n .. n + 31)`, the last bit is `x(n + 30)`, and the window, if recorded,
holds the last bits pushed. -/
def Obligations.Adv1AdvancesX1 : Prop :=
  ∀ (n : Nat) (s : State), s.snap.WindowLegal s.sizes → ∃ t, exec (.adv1 n) s = .next t ∧ CompletedWith .noError t ∧
    t.x1.cnt = s.x1.cnt + BitVec.ofNat 32 n ∧ t.x1.ptr.val = (s.x1.ptr.val + n) % 31 ∧ (n = 0 → t.x1 = s.x1) ∧
    (s.snap.winEn = false → t.x1.win = s.x1.win) ∧
    (∀ x : Nat → Bool, (∀ j, j < 31 → x j = s.x1.seq j) → (∀ k, x (k + 31) = (x (k + 3) ^^ x k)) →
      (∀ j, j < 31 → t.x1.seq j = x (n + j)) ∧ (0 < n → t.x1.last = x (n + 30)) ∧
      (s.snap.winEn = true → 0 < n →
        let pushed := s.x1.win ++ (List.range n).map fun m => x (m + 31)
        t.x1.win = pushed.drop (pushed.length - s.snap.winCap.toNat))) ∧
    { t with x1 := s.x1, err := s.err, busy := s.busy, done := s.done } = s

/-- ADV2 n advances X2 along its recurrence and changes nothing else (40_lfsr.md section 2, ADV2). -/
def Obligations.Adv2AdvancesX2 : Prop :=
  ∀ (n : Nat) (s : State), s.snap.WindowLegal s.sizes → ∃ t, exec (.adv2 n) s = .next t ∧ CompletedWith .noError t ∧
    t.x2.cnt = s.x2.cnt + BitVec.ofNat 32 n ∧ t.x2.ptr.val = (s.x2.ptr.val + n) % 31 ∧ (n = 0 → t.x2 = s.x2) ∧
    (s.snap.winEn = false → t.x2.win = s.x2.win) ∧
    (∀ x : Nat → Bool, (∀ j, j < 31 → x j = s.x2.seq j) →
      (∀ k, x (k + 31) = (x (k + 3) ^^ x (k + 2) ^^ x (k + 1) ^^ x k)) →
      (∀ j, j < 31 → t.x2.seq j = x (n + j)) ∧ (0 < n → t.x2.last = x (n + 30)) ∧
      (s.snap.winEn = true → 0 < n →
        let pushed := s.x2.win ++ (List.range n).map fun m => x (m + 31)
        t.x2.win = pushed.drop (pushed.length - s.snap.winCap.toNat))) ∧
    { t with x2 := s.x2, err := s.err, busy := s.busy, done := s.done } = s

/-- ADVJ n leaves X1 as ADV1 n leaves it and X2 as ADV2 n leaves it, and changes nothing else (40_lfsr.md section 2, ADVJ);
RES_BITS[2] is the XOR of the last pair. -/
def Obligations.AdvjAdvancesBoth : Prop :=
  ∀ (n : Nat) (s : State), s.snap.WindowLegal s.sizes →
    ∃ t t1 t2, exec (.advj n) s = .next t ∧ exec (.adv1 n) s = .next t1 ∧ exec (.adv2 n) s = .next t2 ∧
      CompletedWith .noError t ∧ t.x1 = t1.x1 ∧ t.x2 = t2.x2 ∧ t.resBits.getLsbD 2 = (t1.x1.last ^^ t2.x2.last) ∧
      t.x1.cnt = s.x1.cnt + BitVec.ofNat 32 n ∧ t.x2.cnt = s.x2.cnt + BitVec.ofNat 32 n ∧
      { t with x1 := s.x1, x2 := s.x2, err := s.err, busy := s.busy, done := s.done } = s

/-- GEN writes the Gold sequence of the closed form to OUTBUF and leaves both units after `1569 + L` advances (41_gold.md
section 2, GEN; section 1). -/
def Obligations.GenWritesGoldSequence : Prop :=
  ∀ s : State, s.snap.argLen.toNat ≤ s.sizes.genMaxBits → s.snap.WindowLegal s.sizes →
    let L := s.snap.argLen.toNat
    let c := s.snap.argCinit
    ∃ t, exec .gen s = .next t ∧ CompletedWith .noError t ∧ t.outLen = s.snap.argLen ∧
      (∀ i, i < L → t.outBit i = goldRef c i) ∧ (∀ i, L ≤ i → i < s.sizes.genMaxBits → t.outBit i = s.outBit i) ∧
      t.x1 = loadX1.advN tapsX1 s.snap.window (1569 + L) ∧ t.x2 = (loadX2 c).advN tapsX2 s.snap.window (1569 + L) ∧
      t.x1.cnt.toNat = 1569 + L ∧ t.x2.cnt.toNat = 1569 + L ∧ t.x1.ptr.val = (1569 + L) % 31 ∧
      { t with
        x1 := s.x1, x2 := s.x2, outbuf := s.outbuf, outLen := s.outLen, err := s.err, busy := s.busy,
        done := s.done } = s

/-- CINIT writes the formula's value to RES_CINIT and changes nothing else (42_cinit.md section 2, CINIT). -/
def Obligations.CinitComputesFormula : Prop :=
  ∀ s : State, s.snap.argId.toNat ≤ 65535 → ∃ t, exec .cinit s = .next t ∧ CompletedWith .noError t ∧
    (t.resCinit.toNat : Int) =
      cinitFormula s.snap.argId.toNat s.snap.argSps.toNat s.snap.argSlot.toNat s.snap.argSym.toNat ∧
    { t with resCinit := s.resCinit, err := s.err, busy := s.busy, done := s.done } = s

/-- GENID computes c_init and generates from it (42_cinit.md section 2, GENID). -/
def Obligations.GenidGeneratesFromFormula : Prop :=
  ∀ s : State, s.snap.argId.toNat ≤ 65535 → s.snap.argLen.toNat ≤ s.sizes.genMaxBits → s.snap.WindowLegal s.sizes →
    let L := s.snap.argLen.toNat
    ∃ t, exec .genid s = .next t ∧ CompletedWith .noError t ∧
      (t.resCinit.toNat : Int) =
        cinitFormula s.snap.argId.toNat s.snap.argSps.toNat s.snap.argSlot.toNat s.snap.argSym.toNat ∧
      t.outLen = s.snap.argLen ∧
      (∀ i, i < L → t.outBit i = goldRef t.resCinit i) ∧ (∀ i, L ≤ i → i < s.sizes.genMaxBits → t.outBit i = s.outBit i) ∧
      t.x1 = loadX1.advN tapsX1 s.snap.window (1569 + L) ∧
      t.x2 = (loadX2 t.resCinit).advN tapsX2 s.snap.window (1569 + L) ∧
      { t with
        x1 := s.x1, x2 := s.x2, outbuf := s.outbuf, outLen := s.outLen, resCinit := s.resCinit, err := s.err,
        busy := s.busy, done := s.done } = s

/-- BUILD fills every entry with the first `N` Gold bits of its identifier (43_seed_cache.md section 2, BUILD). -/
def Obligations.BuildFillsEveryEntry : Prop :=
  ∀ s : State, s.snap.argLen.toNat ≤ s.sizes.cacheMaxBits → s.snap.WindowLegal s.sizes →
    let N := s.snap.argLen.toNat
    let c := fun id : Nat => cinitFn (BitVec.ofNat 32 id) s.snap.argSps s.snap.argSlot s.snap.argSym
    ∃ t, exec .build s = .next t ∧ CompletedWith .noError t ∧ t.cacheState = .valid ∧ t.cacheLen = s.snap.argLen ∧
      (∀ id, id < 65536 → t.elen id = s.snap.argLen ∧
        (∀ i, i < N → t.cacheBit id i = goldRef (c id) i) ∧
        (∀ i, N ≤ i → i < s.sizes.cacheMaxBits → t.cacheBit id i = s.cacheBit id i)) ∧
      t.x1 = loadX1.advN tapsX1 s.snap.window (1569 + N) ∧
      t.x2 = (loadX2 (c 65535)).advN tapsX2 s.snap.window (1569 + N) ∧
      { t with
        x1 := s.x1, x2 := s.x2, cache := s.cache, cacheLen := s.cacheLen, cacheState := s.cacheState, err := s.err,
        busy := s.busy, done := s.done } = s

/-- COMMIT: VALID if every recorded length is the requested one, else STALE with CACHE_MISMATCH; bits and lengths keep
(43_seed_cache.md section 2, COMMIT). -/
def Obligations.CommitValidatesLengths : Prop :=
  ∀ s : State, s.snap.argLen.toNat ≤ s.sizes.cacheMaxBits →
    ((∀ id, id < 65536 → s.elen id = s.snap.argLen) →
      exec .commit s = .next { s with
        cacheLen := s.snap.argLen, cacheState := .valid, err := .noError, busy := false, done := true }) ∧
    ((∃ id, id < 65536 ∧ s.elen id ≠ s.snap.argLen) →
      exec .commit s = .next { s with
        cacheLen := s.snap.argLen, cacheState := .stale, err := .cacheMismatch, busy := false, done := true })

/-- INVAL marks the cache EMPTY and changes nothing else (43_seed_cache.md section 2, INVAL). -/
def Obligations.InvalMarksEmpty : Prop :=
  ∀ s : State, exec .inval s = .next { s with cacheState := .empty, err := .noError, busy := false, done := true }

/-- FIND lists exactly the matching identifiers, ascending, each with its least position (44_recovery.md sections 1 and 2,
FIND). -/
def Obligations.FindListsEveryMatch : Prop :=
  ∀ s : State, 1 ≤ s.snap.queryLen.toNat → s.snap.queryLen.toNat ≤ 64 → s.cacheState = .valid →
    s.cacheLen.toNat ≤ s.sizes.cacheMaxBits → s.result.sorted →
    let L := s.snap.queryLen.toNat
    let hit := fun id p : Nat =>
      p + L ≤ s.cacheLen.toNat ∧ ∀ j, j < L → s.cacheBit id (p + j) = s.snap.queryBit j
    ∃ t, exec .find s = .next t ∧ CompletedWith .noError t ∧ t.resCount.toNat ≤ 65536 ∧
      (∀ id, id < 65536 →
        ((∃ p, hit id p) ↔ ∃ k, k < t.resCount.toNat ∧ (t.resultWord k).toNat % 65536 = id)) ∧
      (∀ k, k < t.resCount.toNat →
        let id := (t.resultWord k).toNat % 65536
        let p := (t.resultWord k).toNat / 65536
        hit id p ∧ ∀ p', p' < p → ¬hit id p') ∧
      (∀ k k', k < k' → k' < t.resCount.toNat →
        (t.resultWord k).toNat % 65536 < (t.resultWord k').toNat % 65536) ∧
      (∀ k, t.resCount.toNat ≤ k → t.resultWord k = s.resultWord k) ∧
      { t with result := s.result, resCount := s.resCount, err := s.err, busy := s.busy, done := s.done } = s

/-- REPORT counts, for each length, the entries that hold the truth entry's tail (44_recovery.md section 2, REPORT). -/
def Obligations.ReportCountsTailMatches : Prop :=
  ∀ s : State, s.snap.argId.toNat ≤ 65535 → s.cacheState = .valid → 64 ≤ s.cacheLen.toNat →
    let N := s.cacheLen.toNat
    let T := s.snap.argId.toNat
    ∃ t, exec .report s = .next t ∧ CompletedWith .noError t ∧
      (∀ k : Fin 64, (t.report[k]).toNat =
        (List.range 65536).countP fun id =>
          (List.range (N - k.val)).any fun p =>
            (List.range (k.val + 1)).all fun j => s.cacheBit id (p + j) == s.cacheBit T (N - (k.val + 1) + j)) ∧
      { t with report := s.report, err := s.err, busy := s.busy, done := s.done } = s

/-! The registers' sequences. -/

/-- 10_state.md R16: the logical view, its course along the unit's sequence, the registers that show it, and the physical array
recovered from it. -/
def Obligations.LogicalViewFollowsSequence : Prop :=
  (∀ (u : Lfsr) (j : Nat), j < 31 → u.seq j = u.phys.getLsbD ((u.ptr.val + j) % 31)) ∧
  (∀ (window : Option Nat) (c : Word) (m j : Nat), j < 31 →
    (loadX1.advN tapsX1 window m).seq j = refX1 (m + j) ∧
    ((loadX2 c).advN tapsX2 window m).seq j = refX2 c (m + j)) ∧
  (∀ (s : State) (j : Nat), j < 31 →
    (s.readValue .x1State).getLsbD j = s.x1.seq j ∧ (s.readValue .x2State).getLsbD j = s.x2.seq j) ∧
  (∀ (u : Lfsr) (k : Nat), k < 31 → u.phys.getLsbD k = u.seq ((k + 31 - u.ptr.val) % 31))

/-- 40_lfsr.md R83: what a push leaves, and that the window holds the last bits pushed, in order. -/
def Obligations.WindowHoldsLastBits : Prop :=
  (∀ (w : List Bool) (b : Bool) (K : Nat), (winpush w b K).length ≤ K ∧ (winpush w b K) <:+ (w ++ [b]) ∧
    (w.length + 1 ≤ K → winpush w b K = w ++ [b]) ∧ (K ≤ w.length + 1 → (winpush w b K).length = K)) ∧
  (∀ (bits : List Bool) (K : Nat),
    (bits.foldl (fun w b => winpush w b K) []).length = min bits.length K ∧
    bits.foldl (fun w b => winpush w b K) [] = bits.drop (bits.length - min bits.length K))

/-- 40_lfsr.md R84: an illegal capacity with recording on stops every advancing command before any effect; with recording off
the capacity is not checked and advances leave the windows. -/
def Obligations.WindowCapacityCheck : Prop :=
  (∀ (s : State) (n : Nat) (i : Instr),
    i = .adv1 n ∨ i = .adv2 n ∨ i = .advj n ∨ i = .gen ∨ i = .genid ∨ i = .build →
    s.snap.winEn = true → s.snap.winCap.toNat = 0 ∨ s.sizes.winCapMax < s.snap.winCap.toNat →
    exec i s = .next { s with err := .invalidParameter, busy := false, done := true }) ∧
  (∀ (z : Config.Sizes) (S : Snapshot) (K : Word), S.winEn = false →
    advanceChecks z { S with winCap := K } = advanceChecks z S ∧ genChecks z { S with winCap := K } = genChecks z S ∧
    genidChecks z { S with winCap := K } = genidChecks z S ∧
    buildChecks z { S with winCap := K } = buildChecks z S) ∧
  (∀ (S : Snapshot) (taps : List Nat) (u : Lfsr) (n : Nat), S.winEn = false →
    (u.advN taps S.window n).win = u.win)

/-- The zero state of X2 is fixed, and X1 never reaches it from its seed (40_lfsr.md section 1, zero state). -/
def Obligations.ZeroStateIsFixedAndNeverReachedByX1 : Prop :=
  (∀ (c : Word) (window : Option Nat) (m : Nat), c.toNat % 2 ^ 31 = 0 →
    ((loadX2 c).advN tapsX2 window m).phys = 0#31 ∧ ((loadX2 c).advN tapsX2 window m).last = false) ∧
  (∀ (window : Option Nat) (m : Nat), (loadX1.advN tapsX1 window m).phys ≠ 0#31)

/-- 41_gold.md R92: the incremental procedure gives the closed form; advance number `P_DISCARD + n + 1` returns
`x(n + 1600)`; the literal discard count 1599 would give `c(n + 30)`, which differs in general. -/
def Obligations.GoldrunEqualsClosedForm : Prop :=
  (∀ (window : Option Nat) (c : Word) (L : Nat), (goldrun window c L).bits = (List.range L).map (goldRef c)) ∧
  (∀ (window : Option Nat) (c : Word) (n : Nat),
    (loadX1.advN tapsX1 window (1569 + n + 1)).last = refX1 (n + 1600) ∧
    ((loadX2 c).advN tapsX2 window (1569 + n + 1)).last = refX2 c (n + 1600)) ∧
  (∀ (window : Option Nat) (c : Word) (L : Nat),
    (goldEmit window L (loadX1.advN tapsX1 window 1599) ((loadX2 c).advN tapsX2 window 1599)).bits =
      (List.range L).map fun n => goldRef c (n + 30)) ∧
  (∃ (c : Word) (n : Nat), goldRef c (n + 30) ≠ goldRef c n)

/-- Lock-step: GEN, GENID and BUILD leave both units with the same advance count, and after a common load and `m` joint
advances the XOR of the last bits is a Gold bit once the warm-up is over (70_reset_and_hazards.md section 2, lock-step). -/
def Obligations.LockStepGivesGoldBits : Prop :=
  (∀ (s t : State) (i : Instr), i = .gen ∨ i = .genid ∨ i = .build → exec i s = .next t → t.err = .noError →
    t.x1.cnt = t.x2.cnt) ∧
  (∀ (window : Option Nat) (c : Word) (n : Nat),
    ((loadX1.advN tapsX1 window (1570 + n)).last ^^ ((loadX2 c).advN tapsX2 window (1570 + n)).last) = goldRef c n)

/-- 41_gold.md R93: the output depends only on the length and bits 30..0 of c_init: of every run, and of GEN whatever the
block did before. -/
def Obligations.OutputDependsOnLengthAndSeedOnly : Prop :=
  (∀ (window window' : Option Nat) (c c' : Word) (L : Nat), (∀ k, k < 31 → c.getLsbD k = c'.getLsbD k) →
    (goldrun window c L).bits = (goldrun window' c' L).bits) ∧
  (∀ s s' t t' : State, s.snap.argLen = s'.snap.argLen →
    (∀ k, k < 31 → s.snap.argCinit.getLsbD k = s'.snap.argCinit.getLsbD k) →
    exec .gen s = .next t → t.err = .noError → exec .gen s' = .next t' → t'.err = .noError →
    t.outLen = t'.outLen ∧ ∀ i, i < t.outLen.toNat → t.outBit i = t'.outBit i)

/-- 42_cinit.md R97: the realisation modulo 2^32 step by step, its equality with the formula for all operand values, unsigned
or two's complement, and that no operand of `sps`, `slot`, `sym` raises an error. -/
def Obligations.CinitRealisationIsExact : Prop :=
  (∀ id sps slot sym : Word,
    let t1 := (sps.toNat * slot.toNat + sym.toNat + 1) % 2 ^ 32
    let t2 := (t1 * 2 ^ 17) % 2 ^ 32
    let t3 := (t2 * ((2 * id.toNat + 1) % 2 ^ 32)) % 2 ^ 32
    let t4 := (t3 + 2 * id.toNat) % 2 ^ 32
    (cinitFn id sps slot sym).toNat = t4 % 2 ^ 31) ∧
  (∀ id sps slot sym : Word,
    ((cinitFn id sps slot sym).toNat : Int) = cinitFormula id.toNat sps.toNat slot.toNat sym.toNat ∧
    ((cinitFn id sps slot sym).toNat : Int) = cinitFormula id.toInt sps.toInt slot.toInt sym.toInt) ∧
  (∀ (z : Config.Sizes) (S : Snapshot) (a b c : Word),
    let S' := { S with argSps := a, argSlot := b, argSym := c }
    cinitChecks S' = cinitChecks S ∧ genidChecks z S' = genidChecks z S ∧ buildChecks z S' = buildChecks z S)

/-- 42_cinit.md R98: CINIT and GENID raise INVALID_PARAMETER for an identifier above 65535; BUILD does not read ARG_ID. -/
def Obligations.IdentifierRangeIsChecked : Prop :=
  (∀ (s : State) (i : Instr), i = .cinit ∨ i = .genid → 65535 < s.snap.argId.toNat →
    exec i s = .next { s with err := .invalidParameter, busy := false, done := true }) ∧
  (∀ (s t : State) (a : Word), exec .build s = .next t →
    exec .build { s with snap := { s.snap with argId := a } } =
      .next { t with snap := { s.snap with argId := a } })

/-- 42_cinit.md R99: the reference value. -/
def Obligations.CinitReferenceValue : Prop :=
  cinitFormula 0 14 4 2 = 7733248 ∧ cinitFn 0#32 14#32 4#32 2#32 = 0x00760000#32

/-! The seed cache and the matcher. -/

/-- 43_seed_cache.md R103: what sets each cache state, and that no other event changes it. -/
def Obligations.CacheLifecycle : Prop :=
  (∀ s : State, s.hardReset.cacheState = .empty ∧ s.softReset.cacheState = .empty) ∧
  (∀ s t : State, exec .build s = .next t → t.err = .noError → t.cacheState = .valid) ∧
  (∀ s t : State, exec .commit s = .next t → s.snap.argLen.toNat ≤ s.sizes.cacheMaxBits →
    ((∀ id, id < 65536 → s.elen id = s.snap.argLen) → t.cacheState = .valid) ∧
    ((∃ id, id < 65536 ∧ s.elen id ≠ s.snap.argLen) → t.cacheState = .stale)) ∧
  (∀ s t : State, exec .inval s = .next t → t.cacheState = .empty) ∧
  (∀ (s : State) (v : Word) (w : Fin 2048), w.val < s.sizes.cacheWords → s.busy = false →
    (s.hostWrite Reg.cacheElen.offset 4 v).cacheState = .empty ∧
    (s.hostWrite (Reg.cacheWin w).offset 4 v).cacheState = .empty) ∧
  (∀ s t : State, step s = .next t → t.cacheState ≠ s.cacheState →
    (∃ rest, s.pending = .hardReset :: rest) ∨
    (∃ a v rest, s.pending = .write a 4 v :: rest ∧
      ((Reg.listedAt s.sizes a = some .ctrl ∧ v.getLsbD 31 = true) ∨
        (s.busy = false ∧ (Reg.listedAt s.sizes a = some .cacheElen ∨ ∃ w, Reg.listedAt s.sizes a = some (.cacheWin w))))) ∨
    (s.busy = true ∧ (s.pending = [] ∨ ∃ rest, s.pending = .engine :: rest) ∧
      (decode s.snap.cmd = .ok .build ∨ decode s.snap.cmd = .ok .commit ∨ decode s.snap.cmd = .ok .inval)))

/-- 43_seed_cache.md R104: an idle host write to CACHE_WIN or CACHE_ELEN stores its value and sets EMPTY, a busy one is
refused; every other cell, length and register keeps. -/
def Obligations.HostCacheWrites : Prop :=
  (∀ (s : State) (w : Fin 2048) (v : Word), w.val < s.sizes.cacheWords → s.busy = false →
    let t := s.hostWrite (Reg.cacheWin w).offset 4 v
    t.cacheState = .empty ∧ (∀ id, t.elen id = s.elen id) ∧
    (∀ j, j < 32 → t.cacheBit s.cacheSel.toNat (32 * w.val + j) = v.getLsbD j) ∧
    (∀ id i, i < s.sizes.cacheMaxBits → id ≠ s.cacheSel.toNat ∨ i < 32 * w.val ∨ 32 * w.val + 32 ≤ i →
      t.cacheBit id i = s.cacheBit id i) ∧
    { t with cache := s.cache, cacheState := s.cacheState } = s) ∧
  (∀ (s : State) (v : Word), s.busy = false →
    let t := s.hostWrite Reg.cacheElen.offset 4 v
    t.cacheState = .empty ∧ t.elen s.cacheSel.toNat = v ∧
    (∀ id, id ≠ s.cacheSel.toNat → t.elen id = s.elen id) ∧ (∀ id i, t.cacheBit id i = s.cacheBit id i) ∧
    { t with cache := s.cache, cacheState := s.cacheState } = s) ∧
  (∀ (s : State) (w : Fin 2048) (v : Word), s.busy = true →
    s.hostWrite (Reg.cacheWin w).offset 4 v = { s with accErr := true } ∧
    s.hostWrite Reg.cacheElen.offset 4 v = { s with accErr := true })

/-- Loading one entry as the host procedure does: its length and words are stored, every other entry keeps, the cache is
EMPTY (43_seed_cache.md section 3, Load). -/
def Obligations.LoadedEntryHoldsItsWords : Prop :=
  ∀ (s : State) (id : Nat) (len : Word) (words : List Word), s.busy = false → id < 65536 →
    words.length ≤ s.sizes.cacheWords →
    ∃ t : State,
      Host.Core.run Sys2Proof.core (words.length + 2) { s with pending := loadEntry id len words } = .next t ∧
      t.pending = [] ∧ t.cacheState = .empty ∧ t.elen id = len ∧
      (∀ i, i < 32 * words.length → t.cacheBit id i = (words.getD (i / 32) 0#32).getLsbD (i % 32)) ∧
      (∀ i, 32 * words.length ≤ i → i < s.sizes.cacheMaxBits → t.cacheBit id i = s.cacheBit id i) ∧
      (∀ id', id' ≠ id → t.cacheEntry id' = s.cacheEntry id')

/-- No false negatives: on a VALID cache a query that is the tail of an entry finds that entry, at the tail's position or
earlier (44_recovery.md section 1). -/
def Obligations.TailOfAnEntryIsFound : Prop :=
  ∀ (s t : State) (id : Nat), id < 65536 → s.cacheState = .valid → s.cacheLen.toNat ≤ s.sizes.cacheMaxBits → s.result.sorted →
    1 ≤ s.snap.queryLen.toNat → s.snap.queryLen.toNat ≤ 64 → s.snap.queryLen.toNat ≤ s.cacheLen.toNat →
    (∀ j, j < s.snap.queryLen.toNat →
      s.snap.queryBit j = s.cacheBit id (s.cacheLen.toNat - s.snap.queryLen.toNat + j)) →
    exec .find s = .next t →
    ∃ k, k < t.resCount.toNat ∧ (t.resultWord k).toNat % 65536 = id ∧
      (t.resultWord k).toNat / 65536 ≤ s.cacheLen.toNat - s.snap.queryLen.toNat

/-- Collision property: a successful REPORT's counts never grow with the length, are at least 1 and at most 65536
(44_recovery.md sections 1 and 2). -/
def Obligations.ReportCountsNeverGrow : Prop :=
  ∀ s t : State, exec .report s = .next t → t.err = .noError →
    (∀ k : Fin 64, 1 ≤ (t.report[k]).toNat ∧ (t.report[k]).toNat ≤ 65536) ∧
    (∀ k k' : Fin 64, k ≤ k' → (t.report[k']).toNat ≤ (t.report[k]).toNat)

/-! The host port. -/

/-- The register map read both ways, at all legal sizes: the offsets that name a register are the listed registers' own, and the
windows list the words of the sizes (10_state.md section 5). -/
def Obligations.OffsetsNameRegisters : Prop :=
  (∀ (z : Config.Sizes) (a : BitVec 16) (r : Reg), Reg.listedAt z a = some r ↔ a = r.offset ∧ r.listed z = true) ∧
  (∀ (z : Config.Sizes) (w : Fin 2048),
    ((Reg.cacheWin w).listed z = true ↔ 32 * w.val < z.cacheMaxBits) ∧
    ((Reg.outWin w).listed z = true ↔ 32 * w.val < z.genMaxBits)) ∧
  (∀ (z : Config.Sizes) (r : Reg), (∀ w, r ≠ .cacheWin w) → (∀ w, r ≠ .outWin w) → r.listed z = true)

/-- 20_memory.md R53: `MemRead`. -/
def Obligations.HostReadFollowsChecks : Prop :=
  ∀ (s : State) (a : BitVec 16) (size : Nat),
    (size ≠ 4 ∨ a.toNat % 4 ≠ 0 →
      s.hostRead a size = { s with accErr := true, readData := some 0#32 }) ∧
    (size = 4 → a.toNat % 4 = 0 → Reg.listedAt s.sizes a = none →
      s.hostRead a size = { s with accErr := true, readData := some 0#32 }) ∧
    (∀ r, size = 4 → Reg.listedAt s.sizes a = some r → r.isBR = true → s.busy = true →
      s.hostRead a size = { s with accErr := true, readData := some 0#32 }) ∧
    (∀ r, size = 4 → Reg.listedAt s.sizes a = some r → ¬(r.isBR = true ∧ s.busy = true) →
      s.hostRead a size = { s with readData := some (s.readValue r) })

/-- 20_memory.md R54: `MemWrite`. -/
def Obligations.HostWriteFollowsChecks : Prop :=
  ∀ (s : State) (a : BitVec 16) (size : Nat) (v : Word),
    (size ≠ 4 ∨ a.toNat % 4 ≠ 0 → s.hostWrite a size v = { s with accErr := true }) ∧
    (size = 4 → a.toNat % 4 = 0 → Reg.listedAt s.sizes a = none → s.hostWrite a size v = { s with accErr := true }) ∧
    (∀ r, size = 4 → Reg.listedAt s.sizes a = some r →
      (r.isBR = true → s.busy = true → s.hostWrite a size v = { s with accErr := true }) ∧
      (r.isRO = true → s.hostWrite a size v = { s with accErr := true }) ∧
      (¬(r.isBR = true ∧ s.busy = true) → r.isRO = false → s.hostWrite a size v = s.writeEffect r v)) ∧
    Reg.status.isRO = false ∧ Reg.cmd.isRO = false

/-- 20_memory.md R57: a write to a register of class RO is dropped and sets ACC_ERR. -/
def Obligations.ReadOnlyWritesAreDropped : Prop :=
  ∀ (s : State) (v : Word) (r : Reg),
    r ∈ [.id, .param0, .param1, .param2, .outLen, .resCinit, .resCount, .resBits, .cacheLen, .resultData, .winData, .winLen,
      .x1State, .x1Ptr, .x1Cnt, .x2State, .x2Ptr, .x2Cnt] ∨ (∃ k, r = .report k) ∨ (∃ w, r = .outWin w) →
    s.hostWrite r.offset 4 v = { s with accErr := true }

/-- While BUSY = 1 every access to a register of class BR is refused, and every other register behaves as when idle
(20_memory.md section 2, busy refusal). -/
def Obligations.BusyRefusal : Prop :=
  ∀ (s : State) (v : Word) (r : Reg), s.busy = true →
    (r ∈ [.outLen, .resCinit, .resCount, .resBits, .cacheElen, .resultData, .winData, .winLen, .x1State, .x1Ptr, .x1Cnt,
      .x2State, .x2Ptr, .x2Cnt] ∨ (∃ k, r = .report k) ∨ (∃ w, r = .cacheWin w) ∨ (∃ w, r = .outWin w) →
      s.hostRead r.offset 4 = { s with accErr := true, readData := some 0#32 } ∧
      s.hostWrite r.offset 4 v = { s with accErr := true }) ∧
    (r ∈ [.id, .param0, .param1, .param2, .ctrl, .status, .cmd, .argCinit, .argLen, .argId, .argSps, .argSlot, .argSym,
      .winCap, .queryLen, .queryLo, .queryHi, .cacheLen, .cacheSel, .resultIdx, .winSel, .winIdx] →
      s.hostRead r.offset 4 = { s with readData := some (s.readValue r) } ∧
      (r.isRO = false → s.hostWrite r.offset 4 v = s.writeEffect r v))

/-- Reads change nothing but ACC_ERR and the host's own read value, and repeating one changes nothing more (20_memory.md
section 2, side effects). -/
def Obligations.ReadsAreIdempotent : Prop :=
  ∀ (s : State) (a : BitVec 16) (size : Nat),
    { s.hostRead a size with accErr := s.accErr, readData := s.readData } = s ∧
    (s.hostRead a size).hostRead a size = s.hostRead a size

/-- The writable registers store what is written, and a write to one changes nothing else: the operand registers all 32 bits,
a plain CTRL write IE and WIN_EN, the selectors their low bits; reserved bits are ignored and read 0 (10_state.md section 5,
CTRL, operand registers, WIN_CAP, query registers, CACHE_SEL, RESULT_IDX, WIN_SEL, WIN_IDX). -/
def Obligations.OperandRegistersStoreAsWritten : Prop :=
  (∀ (s : State) (v : Word) (r : Reg), r ∈ operandRegs →
    let t := s.hostWrite r.offset 4 v
    t.readValue r = v ∧ (∀ r' : Reg, r' ≠ r → t.readValue r' = s.readValue r') ∧
    { t with
      argCinit := s.argCinit, argLen := s.argLen, argId := s.argId, argSps := s.argSps, argSlot := s.argSlot,
      argSym := s.argSym, winCap := s.winCap, queryLen := s.queryLen, queryLo := s.queryLo,
      queryHi := s.queryHi } = s) ∧
  (∀ (s : State) (v : Word), v.getLsbD 31 = false →
    let t := s.hostWrite Reg.ctrl.offset 4 v
    t = { s with ie := v.getLsbD 0, winEn := v.getLsbD 1 } ∧ (t.readValue .ctrl).toNat = v.toNat % 4) ∧
  (∀ (s : State) (v : Word),
    let t := s.hostWrite Reg.cacheSel.offset 4 v
    t = { s with cacheSel := v.extractLsb' 0 16 } ∧ (t.readValue .cacheSel).toNat = v.toNat % 65536) ∧
  (∀ (s : State) (v : Word),
    let t := s.hostWrite Reg.resultIdx.offset 4 v
    t = { s with resultIdx := v.extractLsb' 0 16 } ∧ (t.readValue .resultIdx).toNat = v.toNat % 65536) ∧
  (∀ (s : State) (v : Word),
    let t := s.hostWrite Reg.winSel.offset 4 v
    t = { s with winSel := v.getLsbD 0 } ∧ (t.readValue .winSel).toNat = v.toNat % 2) ∧
  (∀ (s : State) (v : Word),
    let t := s.hostWrite Reg.winIdx.offset 4 v
    t = { s with winIdx := v.extractLsb' 0 16 } ∧ (t.readValue .winIdx).toNat = v.toNat % 65536)

/-- What the status words read: each field at its place with the spec's codes of CACHE_STATE and ERR, every other bit 0; a
write to STATUS clears what it names (10_state.md section 5, CTRL, STATUS, RES_BITS; 60_exceptions.md section 1, the codes). -/
def Obligations.StatusFieldsReadAtTheirPlaces : Prop :=
  ∀ (s : State) (v : Word),
    (s.readValue .status).toNat = s.busy.toNat + 2 * s.done.toNat + 4 * s.cmdLost.toNat + 8 * s.accErr.toNat +
      16 * (match s.cacheState with | .empty => 0 | .valid => 1 | .stale => 2) +
      256 * (match s.err with
        | .noError => 0
        | .invalidParameter => 1
        | .cacheMismatch => 2
        | .cacheUnavailable => 3
        | .illegalCommand => 4) ∧
    (s.readValue .ctrl).toNat = s.ie.toNat + 2 * s.winEn.toNat ∧
    (s.readValue .resBits).toNat = s.x1.last.toNat + 2 * s.x2.last.toNat + 4 * (s.x1.last ^^ s.x2.last).toNat ∧
    s.hostWrite Reg.status.offset 4 v = { s with
      done := s.done && !v.getLsbD 1, cmdLost := s.cmdLost && !v.getLsbD 2, accErr := s.accErr && !v.getLsbD 3 }

/-- The word windows are packed least significant bit first and masked by their lengths (10_state.md section 5, CACHE_WIN,
OUT_WIN). -/
def Obligations.WindowWordsAreMasked : Prop :=
  ∀ (s : State) (w : Fin 2048) (j : Nat), j < 32 →
    (s.readValue (.outWin w)).getLsbD j =
      (decide (32 * w.val + j < s.outLen.toNat) && s.outBit (32 * w.val + j)) ∧
    (s.readValue (.cacheWin w)).getLsbD j =
      (decide (32 * w.val + j < min (s.elen s.cacheSel.toNat).toNat s.sizes.cacheMaxBits) &&
        s.cacheBit s.cacheSel.toNat (32 * w.val + j))

/-- What the registers read, the state words of StatusFieldsReadAtTheirPlaces and the word windows of WindowWordsAreMasked
apart: the constants (PARAM1 and PARAM2 from the sizes), LAST_CMD, the operands, the results and lengths, the selectors,
RESULT_DATA masked by RES_COUNT, the selected window's bit and both window lengths, pointers and counts, REPORT (10_state.md
section 5). -/
def Obligations.ObservationRegistersRead : Prop :=
  ∀ s : State,
    (s.resultIdx.toNat < s.resCount.toNat → s.readValue .resultData = s.resultWord s.resultIdx.toNat) ∧
    (s.resCount.toNat ≤ s.resultIdx.toNat → s.readValue .resultData = 0#32) ∧
    (∀ b, (if s.winSel then s.x2.win else s.x1.win)[s.winIdx.toNat]? = some b →
      (s.readValue .winData).toNat = b.toNat) ∧
    ((if s.winSel then s.x2.win else s.x1.win).length ≤ s.winIdx.toNat → s.readValue .winData = 0#32) ∧
    (s.x1.win.length ≤ 65535 → s.x2.win.length ≤ 65535 →
      (s.readValue .winLen).toNat = s.x1.win.length + 65536 * s.x2.win.length) ∧
    (s.readValue .x1Ptr).toNat = s.x1.ptr.val ∧ (s.readValue .x2Ptr).toNat = s.x2.ptr.val ∧
    s.readValue .x1Cnt = s.x1.cnt ∧ s.readValue .x2Cnt = s.x2.cnt ∧
    (s.readValue .x1State).getLsbD 31 = false ∧ (s.readValue .x2State).getLsbD 31 = false ∧
    (∀ k : Fin 64, s.readValue (.report k) = s.report[k]) ∧
    s.readValue .cmd = s.lastCmd ∧ s.readValue .outLen = s.outLen ∧ s.readValue .resCinit = s.resCinit ∧
    s.readValue .resCount = s.resCount ∧ s.readValue .cacheLen = s.cacheLen ∧
    s.readValue .cacheElen = s.elen s.cacheSel.toNat ∧
    s.readValue .argCinit = s.argCinit ∧ s.readValue .argLen = s.argLen ∧ s.readValue .argId = s.argId ∧
    s.readValue .argSps = s.argSps ∧ s.readValue .argSlot = s.argSlot ∧ s.readValue .argSym = s.argSym ∧
    s.readValue .winCap = s.winCap ∧ s.readValue .queryLen = s.queryLen ∧ s.readValue .queryLo = s.queryLo ∧
    s.readValue .queryHi = s.queryHi ∧
    (s.readValue .cacheSel).toNat = s.cacheSel.toNat ∧ (s.readValue .resultIdx).toNat = s.resultIdx.toNat ∧
    (s.readValue .winSel).toNat = s.winSel.toNat ∧ (s.readValue .winIdx).toNat = s.winIdx.toNat ∧
    s.readValue .id = 0x47333101#32 ∧ s.readValue .param0 = 0x06210640#32 ∧
    (s.readValue .param1).toNat = s.sizes.genMaxBits / 32 + 65536 * (s.sizes.cacheMaxBits / 32) ∧
    (s.readValue .param2).toNat = s.sizes.winCapMax + 65536 * 64 + 16777216 * 31

/-- 30_encoding.md R75: acceptance of a CMD write, and its loss while BUSY = 1. -/
def Obligations.CommandAcceptance : Prop :=
  ∀ (s : State) (v : Word),
    (s.busy = true → s.hostWrite Reg.cmd.offset 4 v = { s with cmdLost := true }) ∧
    (s.busy = false →
      s.hostWrite Reg.cmd.offset 4 v = { s with lastCmd := v, snap := s.capture v, done := false, busy := true })

/-- 10_state.md R24: the snapshot copies the command word and the then-current operands, and host writes to these registers
while BUSY = 1 do not affect the running command. -/
def Obligations.RunningCommandReadsSnapshotOnly : Prop :=
  (∀ (s : State) (v : Word), s.busy = false → (s.hostWrite Reg.cmd.offset 4 v).snap =
    ⟨v, s.winEn, s.winCap, s.argCinit, s.argLen, s.argId, s.argSps, s.argSlot, s.argSym, s.queryLen, s.queryLo, s.queryHi⟩) ∧
  (∀ (s : State) (S : Snapshot) (r : Reg), { s with snap := S }.readValue r = s.readValue r) ∧
  (∀ (s : State) (v : Word) (r : Reg), s.busy = true → r ∈ operandRegs ∨ (r = .ctrl ∧ v.getLsbD 31 = false) →
    ∃ t, engineTurn s = .next t ∧ engineTurn (s.hostWrite r.offset 4 v) = .next (t.hostWrite r.offset 4 v))

/-- The interrupt output is CTRL.IE AND STATUS.DONE: a completion raises it if enabled; `ack`, IE = 0, an acceptance and a
reset clear it; an access error does not move it (60_exceptions.md section 2). -/
def Obligations.InterruptFollowsCompletion : Prop :=
  (∀ s : State, s.irq = (s.ie && s.done)) ∧
  (∀ s : State, s.busy = true → ∃ t, engineTurn s = .next t ∧ t.irq = s.ie) ∧
  (∀ (s : State) (v : Word), v.getLsbD 1 = true → (s.hostWrite Reg.status.offset 4 v).irq = false) ∧
  (∀ (s : State) (v : Word), v.getLsbD 0 = false → (s.hostWrite Reg.ctrl.offset 4 v).irq = false) ∧
  (∀ (s : State) (v : Word), (s.accept v).irq = false) ∧
  (∀ s : State, s.hardReset.irq = false ∧ s.softReset.irq = false) ∧
  (∀ s : State, s.accessError.irq = s.irq ∧ { s with cmdLost := true }.irq = s.irq)

/-! Reset. -/

/-- 70_reset_and_hazards.md R138: the value of every register and specified memory after a hardware reset, at power-on and
later; PARAM1 and PARAM2 at the decided sizes, which State.reset has (log 1). -/
def Obligations.HardwareResetValues : Prop :=
  ∀ s s' : State, s' = State.reset ∨ s' = s.hardReset →
    (∀ p ∈ resetReads, s'.readValue p.1 = p.2) ∧ State.reset.sizes = .decided ∧
    (s'.sizes = .decided → s'.readValue .param1 = 0x01000100#32 ∧ s'.readValue .param2 = 0x1F401000#32) ∧ (∀ k : Fin 64, s'.report[k] = 0#32) ∧
    (∀ id, s'.elen id = 0#32) ∧ s'.busy = false ∧ s'.irq = false ∧
    (∀ w : Fin 2048, s'.readValue (.outWin w) = 0#32 ∧ s'.readValue (.cacheWin w) = 0#32) ∧
    s'.x1 = loadX1 ∧ s'.x2 = loadX2 0#32

/-- A soft reset of an idle block takes every register to its reset value and keeps OUTBUF bits, CACHE bits and RESULT words;
the other bits of the write are discarded (70_reset_and_hazards.md section 1, soft reset). -/
def Obligations.SoftResetKeepsMemories : Prop :=
  ∀ (s : State) (v : Word), v.getLsbD 31 = true → s.busy = false → s.cache.sorted →
    let t := s.hostWrite Reg.ctrl.offset 4 v
    (∀ p ∈ resetReads, t.readValue p.1 = p.2) ∧ (∀ k : Fin 64, t.report[k] = 0#32) ∧ (∀ id, t.elen id = 0#32) ∧
    (∀ i, t.outBit i = s.outBit i) ∧ (∀ id i, t.cacheBit id i = s.cacheBit id i) ∧
    (∀ k, t.resultWord k = s.resultWord k)

/-- A soft reset while BUSY = 1 removes the command: no DONE and no ERR, registers at their reset values, and no memory cell
lost but those the command could have written (70_reset_and_hazards.md section 1, reset while busy). -/
def Obligations.BusyResetLosesOnlyTargetCells : Prop :=
  ∀ (s : State) (v : Word), v.getLsbD 31 = true → s.busy = true → s.cache.sorted →
    let t := s.hostWrite Reg.ctrl.offset 4 v
    t.busy = false ∧ t.done = false ∧ t.err = .noError ∧ (∀ p ∈ resetReads, t.readValue p.1 = p.2) ∧
    (∀ i, i < s.sizes.genMaxBits →
      s.snap.argLen.toNat ≤ i ∨ (decode s.snap.cmd ≠ .ok .gen ∧ decode s.snap.cmd ≠ .ok .genid) →
      t.outBit i = s.outBit i) ∧
    (∀ id i, i < s.sizes.cacheMaxBits → s.snap.argLen.toNat ≤ i ∨ decode s.snap.cmd ≠ .ok .build →
      t.cacheBit id i = s.cacheBit id i) ∧
    (decode s.snap.cmd ≠ .ok .find → ∀ k, t.resultWord k = s.resultWord k)

/-! The invariant. -/

/-- The invariant holds after reset. -/
def Obligations.InvHoldsAtReset : Prop := Inv State.reset

/-- Every step keeps the invariant: canonical memories, bounded lengths and windows, no unspecified cell visible through
OUT_LEN or RES_COUNT, a VALID cache with equal recorded lengths, X1 never all zeros. -/
def Obligations.StepKeepsInv : Prop := ∀ s t : State, Inv s → step s = .next t → Inv t

/-- No step changes the configuration: the sizes are an argument of the step (00_scope.md sections 3 and 4), which the model
carries in State (DESIGN CHOICE, log 1). -/
def Obligations.StepKeepsConfiguration : Prop := ∀ s t : State, step s = .next t → t.sizes = s.sizes
end

