-- ==== Sys2Proof/Laws/Bits.lean ====
section
/-! SUPPORT. The bits of packed sequences, of words built from bits, of masks and of written bits. -/

namespace Sys2Proof.Machine

/-- Bit `i` of a packed sequence is its element `i` (20_memory.md R62). -/
theorem testBit_packBits (bs : List Bool) (i : Nat) : (packBits bs).testBit i = bs.getD i false := by
  induction bs generalizing i with
  | nil => simp [packBits]
  | cons b bs ih =>
    cases i with
    | zero => cases b <;> simp [packBits, Nat.testBit_zero] <;> omega
    | succ i =>
      have h : (b.toNat + 2 * packBits bs) / 2 = packBits bs := by cases b <;> simp <;> omega
      simp [packBits, Nat.testBit_succ, h, ih]

/-- A packed sequence fits as many bits as it has elements. -/
theorem packBits_lt (bs : List Bool) : packBits bs < 2 ^ bs.length := by
  induction bs with
  | nil => simp [packBits]
  | cons b bs ih =>
    have hb : b.toNat ≤ 1 := by cases b <;> simp
    simp only [packBits, List.length_cons, Nat.pow_succ]
    omega

/-- Bit `j` of a word built from bits. -/
@[simp] theorem getLsbD_wordOfBits (f : Nat → Bool) (j : Nat) :
    (wordOfBits f).getLsbD j = (decide (j < 32) && f j) := by
  rw [wordOfBits, BitVec.getLsbD_ofNat, testBit_packBits]
  by_cases h : j < 32
  · simp [h, List.getD_eq_getElem?_getD]
  · simp [h]

/-- The bits of a mask. -/
@[simp] theorem getLsbD_maskBits (n lo len i : Nat) :
    (maskBits n lo len).getLsbD i = (decide (i < n) && (decide (lo ≤ i) && decide (i < lo + len))) := by
  rw [maskBits, BitVec.getLsbD_shiftLeft, BitVec.getLsbD_ofNat, Nat.testBit_two_pow_sub_one]
  by_cases hn : i < n
  · by_cases hl : lo ≤ i
    · have h1 : ¬ i < lo := by omega
      have h2 : i - lo < n := by omega
      simp only [hn, hl, h1, h2, decide_true, decide_false, Bool.true_and, Bool.not_false]
      exact decide_eq_decide.2 (by omega)
    · simp [hn, hl, Nat.lt_of_not_le hl]
  · simp [hn]

@[simp] theorem getElem_maskBits (n lo len i : Nat) (h : i < n) :
    (maskBits n lo len)[i] = (decide (lo ≤ i) && decide (i < lo + len)) := by
  rw [← BitVec.getLsbD_eq_getElem, getLsbD_maskBits]; simp [h]

@[simp] theorem getElem_wordOfBits (f : Nat → Bool) (j : Nat) (h : j < 32) : (wordOfBits f)[j] = f j := by
  rw [← BitVec.getLsbD_eq_getElem, getLsbD_wordOfBits]; simp [h]

/-- The bits after one was written. -/
@[simp] theorem getLsbD_writeBit {n : Nat} (v : BitVec n) (i j : Nat) (b : Bool) (hi : i < n) :
    (writeBit v i b).getLsbD j = if j = i then b else v.getLsbD j := by
  have one : ∀ k : Nat, (1#n <<< i).getLsbD k = decide (k = i) := by
    intro k
    rw [BitVec.getLsbD_shiftLeft, BitVec.getLsbD_one]
    by_cases hk : k = i
    · subst hk; simp [hi]; omega
    · by_cases hlt : k < i
      · simp [hlt, hk]
      · have : k - i ≠ 0 := by omega
        simp [hk, this]
  have low : ∀ k, ((if b then 1#n else 0#n) <<< i).getLsbD k = (b && decide (k = i)) := by
    intro k
    cases b
    · simp
    · simpa using one k
  by_cases hjn : j < n
  · simp only [writeBit, BitVec.getLsbD_or, BitVec.getLsbD_and, BitVec.getLsbD_not, hjn, decide_true, Bool.true_and, one,
      low]
    by_cases hj : j = i <;> simp [hj]
  · have hj : j ≠ i := by omega
    rw [BitVec.getLsbD_of_ge _ _ (Nat.le_of_not_lt hjn), BitVec.getLsbD_of_ge _ _ (Nat.le_of_not_lt hjn)]
    simp [hj]

@[simp] theorem getElem_writeBit {n : Nat} (v : BitVec n) (i j : Nat) (b : Bool) (hi : i < n) (hj : j < n) :
    (writeBit v i b)[j] = if j = i then b else v[j] := by
  rw [← BitVec.getLsbD_eq_getElem, getLsbD_writeBit _ _ _ _ hi, BitVec.getLsbD_eq_getElem]

/-- The bits of a one-bit field. -/
@[simp] theorem getLsbD_bitAt (b : Bool) (pos i : Nat) :
    (bitAt b pos).getLsbD i = (decide (i < 32) && (decide (i = pos) && b)) := by
  rw [bitAt, BitVec.getLsbD_ofNat]
  cases b
  · simp
  · by_cases h : i = pos
    · subst h; simp [Nat.testBit_shiftLeft]
    · simp only [h, decide_false, Bool.false_and, Bool.and_false, Bool.and_eq_false_iff]
      right
      rw [Nat.testBit_shiftLeft]
      by_cases hle : pos ≤ i
      · obtain ⟨k, hk⟩ : ∃ k, i - pos = k + 1 := ⟨i - pos - 1, by omega⟩
        simp [hk, Nat.testBit_succ]
      · simp [hle]

@[simp] theorem getElem_bitAt (b : Bool) (pos i : Nat) (h : i < 32) : (bitAt b pos)[i] = (decide (i = pos) && b) := by
  rw [← BitVec.getLsbD_eq_getElem, getLsbD_bitAt]; simp [h]

end Sys2Proof.Machine
end

