-- ==== Sys2Proof/Laws/Cells.lean ====
section
/-! SUPPORT. Bit cells: reading after a store or a forget, and that both keep the canonical form. -/

namespace Sys2Proof.Machine

variable {n : Nat} (c : Cells n)

/-- A stored cell reads the bit of the stored number; every other cell reads as before. -/
theorem Cells.read_store (lo len v i : Nat) (free : Bool) (hn : i < n) :
    (c.store lo len v).read i free = if lo ≤ i ∧ i < lo + len then v.testBit (i - lo) else c.read i free := by
  by_cases h : lo ≤ i ∧ i < lo + len
  · have hlo : ¬ i < lo := by omega
    have hsub : i - lo < n := by omega
    have hbit : (BitVec.ofNat n v)[i - lo] = v.testBit (i - lo) := by
      rw [← BitVec.getLsbD_eq_getElem, BitVec.getLsbD_ofNat]; simp [hsub]
    simp [Cells.read, Cells.store, h, hn, hlo, hbit]
  · have h' : (decide (lo ≤ i) && decide (i < lo + len)) = false := by simpa using h
    simp only [Cells.read, Cells.store, BitVec.getLsbD_or, BitVec.getLsbD_and, BitVec.getLsbD_not, getLsbD_maskBits, hn,
      h', decide_true, Bool.and_false, Bool.or_false, Bool.not_false, Bool.and_true, if_neg h]

/-- A stored cell is specified; every other cell is as before. -/
theorem Cells.known_store (lo len v i : Nat) (hn : i < n) :
    (c.store lo len v).known.getLsbD i = (c.known.getLsbD i || (decide (lo ≤ i) && decide (i < lo + len))) := by
  simp [Cells.store, hn]

/-- A forgotten cell reads the free value; every other cell reads as before. -/
theorem Cells.read_forget (len i : Nat) (free : Bool) (hn : i < n) :
    (c.forget len).read i free = if i < len then free else c.read i free := by
  by_cases h : i < len <;> simp [Cells.read, Cells.forget, h, hn]

/-- A cell is in canonical form when no unspecified cell has its bit set. -/
theorem Cells.wf_iff : c.wf ↔ ∀ i, i < n → c.known.getLsbD i = false → c.val.getLsbD i = false := by
  constructor
  · intro h i hi hk
    have h' := congrArg (fun v => BitVec.getLsbD v i) h
    simpa only [BitVec.getLsbD_and, BitVec.getLsbD_not, hi, hk, decide_true, Bool.not_false, Bool.and_true,
      BitVec.getLsbD_zero] using h'
  · intro h
    apply BitVec.eq_of_getLsbD_eq
    intro i hi
    have := h i hi
    cases hk : c.known.getLsbD i <;> simp_all

/-- A store keeps the canonical form. -/
theorem Cells.store_wf (lo len v : Nat) (h : c.wf) : (c.store lo len v).wf := by
  rw [Cells.wf_iff] at *
  intro i hi hk
  rw [Cells.known_store c lo len v i hi, Bool.or_eq_false_iff] at hk
  have hv := h i hi hk.1
  simp only [Cells.store, BitVec.getLsbD_or, BitVec.getLsbD_and, getLsbD_maskBits, hi, hk.2, hv, decide_true,
    Bool.and_false, Bool.false_and, Bool.or_false]

/-- A forget keeps the canonical form. -/
theorem Cells.forget_wf (len : Nat) (h : c.wf) : (c.forget len).wf := by
  rw [Cells.wf_iff] at *
  intro i hi hk
  by_cases hl : i < len
  · simp [Cells.forget, hi, hl]
  · have hk' : c.known.getLsbD i = false := by
      simpa only [Cells.forget, BitVec.getLsbD_and, BitVec.getLsbD_not, getLsbD_maskBits, hi, hl, decide_true,
        Nat.zero_add, decide_false, Bool.and_false, Bool.not_false, Bool.and_true] using hk
    simp only [Cells.forget, BitVec.getLsbD_and, h i hi hk', Bool.false_and]

/-- Unspecified cells are canonical. -/
theorem Cells.blank_wf (n : Nat) : (Cells.blank n).wf := by simp [Cells.wf, Cells.blank]

/-- An unspecified cell reads its free value. -/
@[simp] theorem Cells.read_blank (n i : Nat) (free : Bool) : (Cells.blank n).read i free = free := by
  simp [Cells.read, Cells.blank]

end Sys2Proof.Machine
end

