-- ==== Sys2Proof/Laws/State.lean ====
section
/-! SUPPORT. What each update of the state leaves in each field: one lemma per field and update, true by definition. -/

namespace Sys2Proof.Machine

variable (s : State)

/-! The fields after `finish`. -/

@[simp] theorem State.finish_sizes (e : ErrCode) : (s.finish e).sizes = s.sizes := rfl
@[simp] theorem State.finish_ie (e : ErrCode) : (s.finish e).ie = s.ie := rfl
@[simp] theorem State.finish_winEn (e : ErrCode) : (s.finish e).winEn = s.winEn := rfl
@[simp] theorem State.finish_busy (e : ErrCode) : (s.finish e).busy = false := rfl
@[simp] theorem State.finish_done (e : ErrCode) : (s.finish e).done = true := rfl
@[simp] theorem State.finish_cmdLost (e : ErrCode) : (s.finish e).cmdLost = s.cmdLost := rfl
@[simp] theorem State.finish_accErr (e : ErrCode) : (s.finish e).accErr = s.accErr := rfl
@[simp] theorem State.finish_cacheState (e : ErrCode) : (s.finish e).cacheState = s.cacheState := rfl
@[simp] theorem State.finish_err (e : ErrCode) : (s.finish e).err = e := rfl
@[simp] theorem State.finish_lastCmd (e : ErrCode) : (s.finish e).lastCmd = s.lastCmd := rfl
@[simp] theorem State.finish_argCinit (e : ErrCode) : (s.finish e).argCinit = s.argCinit := rfl
@[simp] theorem State.finish_argLen (e : ErrCode) : (s.finish e).argLen = s.argLen := rfl
@[simp] theorem State.finish_argId (e : ErrCode) : (s.finish e).argId = s.argId := rfl
@[simp] theorem State.finish_argSps (e : ErrCode) : (s.finish e).argSps = s.argSps := rfl
@[simp] theorem State.finish_argSlot (e : ErrCode) : (s.finish e).argSlot = s.argSlot := rfl
@[simp] theorem State.finish_argSym (e : ErrCode) : (s.finish e).argSym = s.argSym := rfl
@[simp] theorem State.finish_winCap (e : ErrCode) : (s.finish e).winCap = s.winCap := rfl
@[simp] theorem State.finish_queryLen (e : ErrCode) : (s.finish e).queryLen = s.queryLen := rfl
@[simp] theorem State.finish_queryLo (e : ErrCode) : (s.finish e).queryLo = s.queryLo := rfl
@[simp] theorem State.finish_queryHi (e : ErrCode) : (s.finish e).queryHi = s.queryHi := rfl
@[simp] theorem State.finish_resCinit (e : ErrCode) : (s.finish e).resCinit = s.resCinit := rfl
@[simp] theorem State.finish_resCount (e : ErrCode) : (s.finish e).resCount = s.resCount := rfl
@[simp] theorem State.finish_outLen (e : ErrCode) : (s.finish e).outLen = s.outLen := rfl
@[simp] theorem State.finish_cacheLen (e : ErrCode) : (s.finish e).cacheLen = s.cacheLen := rfl
@[simp] theorem State.finish_cacheSel (e : ErrCode) : (s.finish e).cacheSel = s.cacheSel := rfl
@[simp] theorem State.finish_resultIdx (e : ErrCode) : (s.finish e).resultIdx = s.resultIdx := rfl
@[simp] theorem State.finish_winSel (e : ErrCode) : (s.finish e).winSel = s.winSel := rfl
@[simp] theorem State.finish_winIdx (e : ErrCode) : (s.finish e).winIdx = s.winIdx := rfl
@[simp] theorem State.finish_x1 (e : ErrCode) : (s.finish e).x1 = s.x1 := rfl
@[simp] theorem State.finish_x2 (e : ErrCode) : (s.finish e).x2 = s.x2 := rfl
@[simp] theorem State.finish_outbuf (e : ErrCode) : (s.finish e).outbuf = s.outbuf := rfl
@[simp] theorem State.finish_outbufMark (e : ErrCode) : (s.finish e).outbufMark = s.outbufMark := rfl
@[simp] theorem State.finish_cache (e : ErrCode) : (s.finish e).cache = s.cache := rfl
@[simp] theorem State.finish_cacheMark (e : ErrCode) : (s.finish e).cacheMark = s.cacheMark := rfl
@[simp] theorem State.finish_result (e : ErrCode) : (s.finish e).result = s.result := rfl
@[simp] theorem State.finish_resultMark (e : ErrCode) : (s.finish e).resultMark = s.resultMark := rfl
@[simp] theorem State.finish_report (e : ErrCode) : (s.finish e).report = s.report := rfl
@[simp] theorem State.finish_snap (e : ErrCode) : (s.finish e).snap = s.snap := rfl
@[simp] theorem State.finish_freeCount (e : ErrCode) : (s.finish e).freeCount = s.freeCount := rfl
@[simp] theorem State.finish_pending (e : ErrCode) : (s.finish e).pending = s.pending := rfl
@[simp] theorem State.finish_readData (e : ErrCode) : (s.finish e).readData = s.readData := rfl

/-! The fields after `accept`. -/

@[simp] theorem State.accept_sizes (v : Word) : (s.accept v).sizes = s.sizes := rfl
@[simp] theorem State.accept_ie (v : Word) : (s.accept v).ie = s.ie := rfl
@[simp] theorem State.accept_winEn (v : Word) : (s.accept v).winEn = s.winEn := rfl
@[simp] theorem State.accept_busy (v : Word) : (s.accept v).busy = true := rfl
@[simp] theorem State.accept_done (v : Word) : (s.accept v).done = false := rfl
@[simp] theorem State.accept_cmdLost (v : Word) : (s.accept v).cmdLost = s.cmdLost := rfl
@[simp] theorem State.accept_accErr (v : Word) : (s.accept v).accErr = s.accErr := rfl
@[simp] theorem State.accept_cacheState (v : Word) : (s.accept v).cacheState = s.cacheState := rfl
@[simp] theorem State.accept_err (v : Word) : (s.accept v).err = s.err := rfl
@[simp] theorem State.accept_lastCmd (v : Word) : (s.accept v).lastCmd = v := rfl
@[simp] theorem State.accept_argCinit (v : Word) : (s.accept v).argCinit = s.argCinit := rfl
@[simp] theorem State.accept_argLen (v : Word) : (s.accept v).argLen = s.argLen := rfl
@[simp] theorem State.accept_argId (v : Word) : (s.accept v).argId = s.argId := rfl
@[simp] theorem State.accept_argSps (v : Word) : (s.accept v).argSps = s.argSps := rfl
@[simp] theorem State.accept_argSlot (v : Word) : (s.accept v).argSlot = s.argSlot := rfl
@[simp] theorem State.accept_argSym (v : Word) : (s.accept v).argSym = s.argSym := rfl
@[simp] theorem State.accept_winCap (v : Word) : (s.accept v).winCap = s.winCap := rfl
@[simp] theorem State.accept_queryLen (v : Word) : (s.accept v).queryLen = s.queryLen := rfl
@[simp] theorem State.accept_queryLo (v : Word) : (s.accept v).queryLo = s.queryLo := rfl
@[simp] theorem State.accept_queryHi (v : Word) : (s.accept v).queryHi = s.queryHi := rfl
@[simp] theorem State.accept_resCinit (v : Word) : (s.accept v).resCinit = s.resCinit := rfl
@[simp] theorem State.accept_resCount (v : Word) : (s.accept v).resCount = s.resCount := rfl
@[simp] theorem State.accept_outLen (v : Word) : (s.accept v).outLen = s.outLen := rfl
@[simp] theorem State.accept_cacheLen (v : Word) : (s.accept v).cacheLen = s.cacheLen := rfl
@[simp] theorem State.accept_cacheSel (v : Word) : (s.accept v).cacheSel = s.cacheSel := rfl
@[simp] theorem State.accept_resultIdx (v : Word) : (s.accept v).resultIdx = s.resultIdx := rfl
@[simp] theorem State.accept_winSel (v : Word) : (s.accept v).winSel = s.winSel := rfl
@[simp] theorem State.accept_winIdx (v : Word) : (s.accept v).winIdx = s.winIdx := rfl
@[simp] theorem State.accept_x1 (v : Word) : (s.accept v).x1 = s.x1 := rfl
@[simp] theorem State.accept_x2 (v : Word) : (s.accept v).x2 = s.x2 := rfl
@[simp] theorem State.accept_outbuf (v : Word) : (s.accept v).outbuf = s.outbuf := rfl
@[simp] theorem State.accept_outbufMark (v : Word) : (s.accept v).outbufMark = s.outbufMark := rfl
@[simp] theorem State.accept_cache (v : Word) : (s.accept v).cache = s.cache := rfl
@[simp] theorem State.accept_cacheMark (v : Word) : (s.accept v).cacheMark = s.cacheMark := rfl
@[simp] theorem State.accept_result (v : Word) : (s.accept v).result = s.result := rfl
@[simp] theorem State.accept_resultMark (v : Word) : (s.accept v).resultMark = s.resultMark := rfl
@[simp] theorem State.accept_report (v : Word) : (s.accept v).report = s.report := rfl
@[simp] theorem State.accept_snap (v : Word) : (s.accept v).snap = s.capture v := rfl
@[simp] theorem State.accept_freeCount (v : Word) : (s.accept v).freeCount = s.freeCount := rfl
@[simp] theorem State.accept_pending (v : Word) : (s.accept v).pending = s.pending := rfl
@[simp] theorem State.accept_readData (v : Word) : (s.accept v).readData = s.readData := rfl

/-! The fields after `accessError`. -/

@[simp] theorem State.accessError_sizes : s.accessError.sizes = s.sizes := rfl
@[simp] theorem State.accessError_ie : s.accessError.ie = s.ie := rfl
@[simp] theorem State.accessError_winEn : s.accessError.winEn = s.winEn := rfl
@[simp] theorem State.accessError_busy : s.accessError.busy = s.busy := rfl
@[simp] theorem State.accessError_done : s.accessError.done = s.done := rfl
@[simp] theorem State.accessError_cmdLost : s.accessError.cmdLost = s.cmdLost := rfl
@[simp] theorem State.accessError_accErr : s.accessError.accErr = true := rfl
@[simp] theorem State.accessError_cacheState : s.accessError.cacheState = s.cacheState := rfl
@[simp] theorem State.accessError_err : s.accessError.err = s.err := rfl
@[simp] theorem State.accessError_lastCmd : s.accessError.lastCmd = s.lastCmd := rfl
@[simp] theorem State.accessError_argCinit : s.accessError.argCinit = s.argCinit := rfl
@[simp] theorem State.accessError_argLen : s.accessError.argLen = s.argLen := rfl
@[simp] theorem State.accessError_argId : s.accessError.argId = s.argId := rfl
@[simp] theorem State.accessError_argSps : s.accessError.argSps = s.argSps := rfl
@[simp] theorem State.accessError_argSlot : s.accessError.argSlot = s.argSlot := rfl
@[simp] theorem State.accessError_argSym : s.accessError.argSym = s.argSym := rfl
@[simp] theorem State.accessError_winCap : s.accessError.winCap = s.winCap := rfl
@[simp] theorem State.accessError_queryLen : s.accessError.queryLen = s.queryLen := rfl
@[simp] theorem State.accessError_queryLo : s.accessError.queryLo = s.queryLo := rfl
@[simp] theorem State.accessError_queryHi : s.accessError.queryHi = s.queryHi := rfl
@[simp] theorem State.accessError_resCinit : s.accessError.resCinit = s.resCinit := rfl
@[simp] theorem State.accessError_resCount : s.accessError.resCount = s.resCount := rfl
@[simp] theorem State.accessError_outLen : s.accessError.outLen = s.outLen := rfl
@[simp] theorem State.accessError_cacheLen : s.accessError.cacheLen = s.cacheLen := rfl
@[simp] theorem State.accessError_cacheSel : s.accessError.cacheSel = s.cacheSel := rfl
@[simp] theorem State.accessError_resultIdx : s.accessError.resultIdx = s.resultIdx := rfl
@[simp] theorem State.accessError_winSel : s.accessError.winSel = s.winSel := rfl
@[simp] theorem State.accessError_winIdx : s.accessError.winIdx = s.winIdx := rfl
@[simp] theorem State.accessError_x1 : s.accessError.x1 = s.x1 := rfl
@[simp] theorem State.accessError_x2 : s.accessError.x2 = s.x2 := rfl
@[simp] theorem State.accessError_outbuf : s.accessError.outbuf = s.outbuf := rfl
@[simp] theorem State.accessError_outbufMark : s.accessError.outbufMark = s.outbufMark := rfl
@[simp] theorem State.accessError_cache : s.accessError.cache = s.cache := rfl
@[simp] theorem State.accessError_cacheMark : s.accessError.cacheMark = s.cacheMark := rfl
@[simp] theorem State.accessError_result : s.accessError.result = s.result := rfl
@[simp] theorem State.accessError_resultMark : s.accessError.resultMark = s.resultMark := rfl
@[simp] theorem State.accessError_report : s.accessError.report = s.report := rfl
@[simp] theorem State.accessError_snap : s.accessError.snap = s.snap := rfl
@[simp] theorem State.accessError_freeCount : s.accessError.freeCount = s.freeCount := rfl
@[simp] theorem State.accessError_pending : s.accessError.pending = s.pending := rfl
@[simp] theorem State.accessError_readData : s.accessError.readData = s.readData := rfl

/-! The fields after `acknowledge`. -/

@[simp] theorem State.acknowledge_sizes : s.acknowledge.sizes = s.sizes := rfl
@[simp] theorem State.acknowledge_ie : s.acknowledge.ie = s.ie := rfl
@[simp] theorem State.acknowledge_winEn : s.acknowledge.winEn = s.winEn := rfl
@[simp] theorem State.acknowledge_busy : s.acknowledge.busy = s.busy := rfl
@[simp] theorem State.acknowledge_done : s.acknowledge.done = false := rfl
@[simp] theorem State.acknowledge_cmdLost : s.acknowledge.cmdLost = s.cmdLost := rfl
@[simp] theorem State.acknowledge_accErr : s.acknowledge.accErr = s.accErr := rfl
@[simp] theorem State.acknowledge_cacheState : s.acknowledge.cacheState = s.cacheState := rfl
@[simp] theorem State.acknowledge_err : s.acknowledge.err = s.err := rfl
@[simp] theorem State.acknowledge_lastCmd : s.acknowledge.lastCmd = s.lastCmd := rfl
@[simp] theorem State.acknowledge_argCinit : s.acknowledge.argCinit = s.argCinit := rfl
@[simp] theorem State.acknowledge_argLen : s.acknowledge.argLen = s.argLen := rfl
@[simp] theorem State.acknowledge_argId : s.acknowledge.argId = s.argId := rfl
@[simp] theorem State.acknowledge_argSps : s.acknowledge.argSps = s.argSps := rfl
@[simp] theorem State.acknowledge_argSlot : s.acknowledge.argSlot = s.argSlot := rfl
@[simp] theorem State.acknowledge_argSym : s.acknowledge.argSym = s.argSym := rfl
@[simp] theorem State.acknowledge_winCap : s.acknowledge.winCap = s.winCap := rfl
@[simp] theorem State.acknowledge_queryLen : s.acknowledge.queryLen = s.queryLen := rfl
@[simp] theorem State.acknowledge_queryLo : s.acknowledge.queryLo = s.queryLo := rfl
@[simp] theorem State.acknowledge_queryHi : s.acknowledge.queryHi = s.queryHi := rfl
@[simp] theorem State.acknowledge_resCinit : s.acknowledge.resCinit = s.resCinit := rfl
@[simp] theorem State.acknowledge_resCount : s.acknowledge.resCount = s.resCount := rfl
@[simp] theorem State.acknowledge_outLen : s.acknowledge.outLen = s.outLen := rfl
@[simp] theorem State.acknowledge_cacheLen : s.acknowledge.cacheLen = s.cacheLen := rfl
@[simp] theorem State.acknowledge_cacheSel : s.acknowledge.cacheSel = s.cacheSel := rfl
@[simp] theorem State.acknowledge_resultIdx : s.acknowledge.resultIdx = s.resultIdx := rfl
@[simp] theorem State.acknowledge_winSel : s.acknowledge.winSel = s.winSel := rfl
@[simp] theorem State.acknowledge_winIdx : s.acknowledge.winIdx = s.winIdx := rfl
@[simp] theorem State.acknowledge_x1 : s.acknowledge.x1 = s.x1 := rfl
@[simp] theorem State.acknowledge_x2 : s.acknowledge.x2 = s.x2 := rfl
@[simp] theorem State.acknowledge_outbuf : s.acknowledge.outbuf = s.outbuf := rfl
@[simp] theorem State.acknowledge_outbufMark : s.acknowledge.outbufMark = s.outbufMark := rfl
@[simp] theorem State.acknowledge_cache : s.acknowledge.cache = s.cache := rfl
@[simp] theorem State.acknowledge_cacheMark : s.acknowledge.cacheMark = s.cacheMark := rfl
@[simp] theorem State.acknowledge_result : s.acknowledge.result = s.result := rfl
@[simp] theorem State.acknowledge_resultMark : s.acknowledge.resultMark = s.resultMark := rfl
@[simp] theorem State.acknowledge_report : s.acknowledge.report = s.report := rfl
@[simp] theorem State.acknowledge_snap : s.acknowledge.snap = s.snap := rfl
@[simp] theorem State.acknowledge_freeCount : s.acknowledge.freeCount = s.freeCount := rfl
@[simp] theorem State.acknowledge_pending : s.acknowledge.pending = s.pending := rfl
@[simp] theorem State.acknowledge_readData : s.acknowledge.readData = s.readData := rfl

/-! The fields after `setCacheEntry`. -/

@[simp] theorem State.setCacheEntry_sizes (id : Nat) (e : CacheEntry) : (s.setCacheEntry id e).sizes = s.sizes := rfl
@[simp] theorem State.setCacheEntry_ie (id : Nat) (e : CacheEntry) : (s.setCacheEntry id e).ie = s.ie := rfl
@[simp] theorem State.setCacheEntry_winEn (id : Nat) (e : CacheEntry) : (s.setCacheEntry id e).winEn = s.winEn := rfl
@[simp] theorem State.setCacheEntry_busy (id : Nat) (e : CacheEntry) : (s.setCacheEntry id e).busy = s.busy := rfl
@[simp] theorem State.setCacheEntry_done (id : Nat) (e : CacheEntry) : (s.setCacheEntry id e).done = s.done := rfl
@[simp] theorem State.setCacheEntry_cmdLost (id : Nat) (e : CacheEntry) : (s.setCacheEntry id e).cmdLost = s.cmdLost := rfl
@[simp] theorem State.setCacheEntry_accErr (id : Nat) (e : CacheEntry) : (s.setCacheEntry id e).accErr = s.accErr := rfl
@[simp] theorem State.setCacheEntry_cacheState (id : Nat) (e : CacheEntry) : (s.setCacheEntry id e).cacheState = s.cacheState := rfl
@[simp] theorem State.setCacheEntry_err (id : Nat) (e : CacheEntry) : (s.setCacheEntry id e).err = s.err := rfl
@[simp] theorem State.setCacheEntry_lastCmd (id : Nat) (e : CacheEntry) : (s.setCacheEntry id e).lastCmd = s.lastCmd := rfl
@[simp] theorem State.setCacheEntry_argCinit (id : Nat) (e : CacheEntry) : (s.setCacheEntry id e).argCinit = s.argCinit := rfl
@[simp] theorem State.setCacheEntry_argLen (id : Nat) (e : CacheEntry) : (s.setCacheEntry id e).argLen = s.argLen := rfl
@[simp] theorem State.setCacheEntry_argId (id : Nat) (e : CacheEntry) : (s.setCacheEntry id e).argId = s.argId := rfl
@[simp] theorem State.setCacheEntry_argSps (id : Nat) (e : CacheEntry) : (s.setCacheEntry id e).argSps = s.argSps := rfl
@[simp] theorem State.setCacheEntry_argSlot (id : Nat) (e : CacheEntry) : (s.setCacheEntry id e).argSlot = s.argSlot := rfl
@[simp] theorem State.setCacheEntry_argSym (id : Nat) (e : CacheEntry) : (s.setCacheEntry id e).argSym = s.argSym := rfl
@[simp] theorem State.setCacheEntry_winCap (id : Nat) (e : CacheEntry) : (s.setCacheEntry id e).winCap = s.winCap := rfl
@[simp] theorem State.setCacheEntry_queryLen (id : Nat) (e : CacheEntry) : (s.setCacheEntry id e).queryLen = s.queryLen := rfl
@[simp] theorem State.setCacheEntry_queryLo (id : Nat) (e : CacheEntry) : (s.setCacheEntry id e).queryLo = s.queryLo := rfl
@[simp] theorem State.setCacheEntry_queryHi (id : Nat) (e : CacheEntry) : (s.setCacheEntry id e).queryHi = s.queryHi := rfl
@[simp] theorem State.setCacheEntry_resCinit (id : Nat) (e : CacheEntry) : (s.setCacheEntry id e).resCinit = s.resCinit := rfl
@[simp] theorem State.setCacheEntry_resCount (id : Nat) (e : CacheEntry) : (s.setCacheEntry id e).resCount = s.resCount := rfl
@[simp] theorem State.setCacheEntry_outLen (id : Nat) (e : CacheEntry) : (s.setCacheEntry id e).outLen = s.outLen := rfl
@[simp] theorem State.setCacheEntry_cacheLen (id : Nat) (e : CacheEntry) : (s.setCacheEntry id e).cacheLen = s.cacheLen := rfl
@[simp] theorem State.setCacheEntry_cacheSel (id : Nat) (e : CacheEntry) : (s.setCacheEntry id e).cacheSel = s.cacheSel := rfl
@[simp] theorem State.setCacheEntry_resultIdx (id : Nat) (e : CacheEntry) : (s.setCacheEntry id e).resultIdx = s.resultIdx := rfl
@[simp] theorem State.setCacheEntry_winSel (id : Nat) (e : CacheEntry) : (s.setCacheEntry id e).winSel = s.winSel := rfl
@[simp] theorem State.setCacheEntry_winIdx (id : Nat) (e : CacheEntry) : (s.setCacheEntry id e).winIdx = s.winIdx := rfl
@[simp] theorem State.setCacheEntry_x1 (id : Nat) (e : CacheEntry) : (s.setCacheEntry id e).x1 = s.x1 := rfl
@[simp] theorem State.setCacheEntry_x2 (id : Nat) (e : CacheEntry) : (s.setCacheEntry id e).x2 = s.x2 := rfl
@[simp] theorem State.setCacheEntry_outbuf (id : Nat) (e : CacheEntry) : (s.setCacheEntry id e).outbuf = s.outbuf := rfl
@[simp] theorem State.setCacheEntry_outbufMark (id : Nat) (e : CacheEntry) : (s.setCacheEntry id e).outbufMark = s.outbufMark := rfl
@[simp] theorem State.setCacheEntry_cache (id : Nat) (e : CacheEntry) : (s.setCacheEntry id e).cache = Memory.set CacheEntry.blank s.cache id e := rfl
@[simp] theorem State.setCacheEntry_cacheMark (id : Nat) (e : CacheEntry) : (s.setCacheEntry id e).cacheMark = s.cacheMark := rfl
@[simp] theorem State.setCacheEntry_result (id : Nat) (e : CacheEntry) : (s.setCacheEntry id e).result = s.result := rfl
@[simp] theorem State.setCacheEntry_resultMark (id : Nat) (e : CacheEntry) : (s.setCacheEntry id e).resultMark = s.resultMark := rfl
@[simp] theorem State.setCacheEntry_report (id : Nat) (e : CacheEntry) : (s.setCacheEntry id e).report = s.report := rfl
@[simp] theorem State.setCacheEntry_snap (id : Nat) (e : CacheEntry) : (s.setCacheEntry id e).snap = s.snap := rfl
@[simp] theorem State.setCacheEntry_freeCount (id : Nat) (e : CacheEntry) : (s.setCacheEntry id e).freeCount = s.freeCount := rfl
@[simp] theorem State.setCacheEntry_pending (id : Nat) (e : CacheEntry) : (s.setCacheEntry id e).pending = s.pending := rfl
@[simp] theorem State.setCacheEntry_readData (id : Nat) (e : CacheEntry) : (s.setCacheEntry id e).readData = s.readData := rfl

/-! The fields after `writeStatus`. -/

@[simp] theorem State.writeStatus_sizes (v : Word) : (s.writeStatus v).sizes = s.sizes := rfl
@[simp] theorem State.writeStatus_ie (v : Word) : (s.writeStatus v).ie = s.ie := rfl
@[simp] theorem State.writeStatus_winEn (v : Word) : (s.writeStatus v).winEn = s.winEn := rfl
@[simp] theorem State.writeStatus_busy (v : Word) : (s.writeStatus v).busy = s.busy := rfl
@[simp] theorem State.writeStatus_done (v : Word) : (s.writeStatus v).done = (s.done && !v.getLsbD 1) := rfl
@[simp] theorem State.writeStatus_cmdLost (v : Word) : (s.writeStatus v).cmdLost = (s.cmdLost && !v.getLsbD 2) := rfl
@[simp] theorem State.writeStatus_accErr (v : Word) : (s.writeStatus v).accErr = (s.accErr && !v.getLsbD 3) := rfl
@[simp] theorem State.writeStatus_cacheState (v : Word) : (s.writeStatus v).cacheState = s.cacheState := rfl
@[simp] theorem State.writeStatus_err (v : Word) : (s.writeStatus v).err = s.err := rfl
@[simp] theorem State.writeStatus_lastCmd (v : Word) : (s.writeStatus v).lastCmd = s.lastCmd := rfl
@[simp] theorem State.writeStatus_argCinit (v : Word) : (s.writeStatus v).argCinit = s.argCinit := rfl
@[simp] theorem State.writeStatus_argLen (v : Word) : (s.writeStatus v).argLen = s.argLen := rfl
@[simp] theorem State.writeStatus_argId (v : Word) : (s.writeStatus v).argId = s.argId := rfl
@[simp] theorem State.writeStatus_argSps (v : Word) : (s.writeStatus v).argSps = s.argSps := rfl
@[simp] theorem State.writeStatus_argSlot (v : Word) : (s.writeStatus v).argSlot = s.argSlot := rfl
@[simp] theorem State.writeStatus_argSym (v : Word) : (s.writeStatus v).argSym = s.argSym := rfl
@[simp] theorem State.writeStatus_winCap (v : Word) : (s.writeStatus v).winCap = s.winCap := rfl
@[simp] theorem State.writeStatus_queryLen (v : Word) : (s.writeStatus v).queryLen = s.queryLen := rfl
@[simp] theorem State.writeStatus_queryLo (v : Word) : (s.writeStatus v).queryLo = s.queryLo := rfl
@[simp] theorem State.writeStatus_queryHi (v : Word) : (s.writeStatus v).queryHi = s.queryHi := rfl
@[simp] theorem State.writeStatus_resCinit (v : Word) : (s.writeStatus v).resCinit = s.resCinit := rfl
@[simp] theorem State.writeStatus_resCount (v : Word) : (s.writeStatus v).resCount = s.resCount := rfl
@[simp] theorem State.writeStatus_outLen (v : Word) : (s.writeStatus v).outLen = s.outLen := rfl
@[simp] theorem State.writeStatus_cacheLen (v : Word) : (s.writeStatus v).cacheLen = s.cacheLen := rfl
@[simp] theorem State.writeStatus_cacheSel (v : Word) : (s.writeStatus v).cacheSel = s.cacheSel := rfl
@[simp] theorem State.writeStatus_resultIdx (v : Word) : (s.writeStatus v).resultIdx = s.resultIdx := rfl
@[simp] theorem State.writeStatus_winSel (v : Word) : (s.writeStatus v).winSel = s.winSel := rfl
@[simp] theorem State.writeStatus_winIdx (v : Word) : (s.writeStatus v).winIdx = s.winIdx := rfl
@[simp] theorem State.writeStatus_x1 (v : Word) : (s.writeStatus v).x1 = s.x1 := rfl
@[simp] theorem State.writeStatus_x2 (v : Word) : (s.writeStatus v).x2 = s.x2 := rfl
@[simp] theorem State.writeStatus_outbuf (v : Word) : (s.writeStatus v).outbuf = s.outbuf := rfl
@[simp] theorem State.writeStatus_outbufMark (v : Word) : (s.writeStatus v).outbufMark = s.outbufMark := rfl
@[simp] theorem State.writeStatus_cache (v : Word) : (s.writeStatus v).cache = s.cache := rfl
@[simp] theorem State.writeStatus_cacheMark (v : Word) : (s.writeStatus v).cacheMark = s.cacheMark := rfl
@[simp] theorem State.writeStatus_result (v : Word) : (s.writeStatus v).result = s.result := rfl
@[simp] theorem State.writeStatus_resultMark (v : Word) : (s.writeStatus v).resultMark = s.resultMark := rfl
@[simp] theorem State.writeStatus_report (v : Word) : (s.writeStatus v).report = s.report := rfl
@[simp] theorem State.writeStatus_snap (v : Word) : (s.writeStatus v).snap = s.snap := rfl
@[simp] theorem State.writeStatus_freeCount (v : Word) : (s.writeStatus v).freeCount = s.freeCount := rfl
@[simp] theorem State.writeStatus_pending (v : Word) : (s.writeStatus v).pending = s.pending := rfl
@[simp] theorem State.writeStatus_readData (v : Word) : (s.writeStatus v).readData = s.readData := rfl

/-! The fields after `writeCtrl`. -/

@[simp] theorem State.writeCtrl_ie (v : Word) : (s.writeCtrl v).ie = v.getLsbD 0 := rfl
@[simp] theorem State.writeCtrl_winEn (v : Word) : (s.writeCtrl v).winEn = v.getLsbD 1 := rfl
@[simp] theorem State.writeCtrl_busy (v : Word) : (s.writeCtrl v).busy = s.busy := rfl
@[simp] theorem State.writeCtrl_done (v : Word) : (s.writeCtrl v).done = s.done := rfl
@[simp] theorem State.writeCtrl_cmdLost (v : Word) : (s.writeCtrl v).cmdLost = s.cmdLost := rfl
@[simp] theorem State.writeCtrl_accErr (v : Word) : (s.writeCtrl v).accErr = s.accErr := rfl
@[simp] theorem State.writeCtrl_cacheState (v : Word) : (s.writeCtrl v).cacheState = s.cacheState := rfl
@[simp] theorem State.writeCtrl_err (v : Word) : (s.writeCtrl v).err = s.err := rfl
@[simp] theorem State.writeCtrl_lastCmd (v : Word) : (s.writeCtrl v).lastCmd = s.lastCmd := rfl
@[simp] theorem State.writeCtrl_argCinit (v : Word) : (s.writeCtrl v).argCinit = s.argCinit := rfl
@[simp] theorem State.writeCtrl_argLen (v : Word) : (s.writeCtrl v).argLen = s.argLen := rfl
@[simp] theorem State.writeCtrl_argId (v : Word) : (s.writeCtrl v).argId = s.argId := rfl
@[simp] theorem State.writeCtrl_argSps (v : Word) : (s.writeCtrl v).argSps = s.argSps := rfl
@[simp] theorem State.writeCtrl_argSlot (v : Word) : (s.writeCtrl v).argSlot = s.argSlot := rfl
@[simp] theorem State.writeCtrl_argSym (v : Word) : (s.writeCtrl v).argSym = s.argSym := rfl
@[simp] theorem State.writeCtrl_winCap (v : Word) : (s.writeCtrl v).winCap = s.winCap := rfl
@[simp] theorem State.writeCtrl_queryLen (v : Word) : (s.writeCtrl v).queryLen = s.queryLen := rfl
@[simp] theorem State.writeCtrl_queryLo (v : Word) : (s.writeCtrl v).queryLo = s.queryLo := rfl
@[simp] theorem State.writeCtrl_queryHi (v : Word) : (s.writeCtrl v).queryHi = s.queryHi := rfl
@[simp] theorem State.writeCtrl_resCinit (v : Word) : (s.writeCtrl v).resCinit = s.resCinit := rfl
@[simp] theorem State.writeCtrl_resCount (v : Word) : (s.writeCtrl v).resCount = s.resCount := rfl
@[simp] theorem State.writeCtrl_outLen (v : Word) : (s.writeCtrl v).outLen = s.outLen := rfl
@[simp] theorem State.writeCtrl_cacheLen (v : Word) : (s.writeCtrl v).cacheLen = s.cacheLen := rfl
@[simp] theorem State.writeCtrl_cacheSel (v : Word) : (s.writeCtrl v).cacheSel = s.cacheSel := rfl
@[simp] theorem State.writeCtrl_resultIdx (v : Word) : (s.writeCtrl v).resultIdx = s.resultIdx := rfl
@[simp] theorem State.writeCtrl_winSel (v : Word) : (s.writeCtrl v).winSel = s.winSel := rfl
@[simp] theorem State.writeCtrl_winIdx (v : Word) : (s.writeCtrl v).winIdx = s.winIdx := rfl
@[simp] theorem State.writeCtrl_x1 (v : Word) : (s.writeCtrl v).x1 = s.x1 := rfl
@[simp] theorem State.writeCtrl_x2 (v : Word) : (s.writeCtrl v).x2 = s.x2 := rfl
@[simp] theorem State.writeCtrl_outbuf (v : Word) : (s.writeCtrl v).outbuf = s.outbuf := rfl
@[simp] theorem State.writeCtrl_outbufMark (v : Word) : (s.writeCtrl v).outbufMark = s.outbufMark := rfl
@[simp] theorem State.writeCtrl_cache (v : Word) : (s.writeCtrl v).cache = s.cache := rfl
@[simp] theorem State.writeCtrl_cacheMark (v : Word) : (s.writeCtrl v).cacheMark = s.cacheMark := rfl
@[simp] theorem State.writeCtrl_result (v : Word) : (s.writeCtrl v).result = s.result := rfl
@[simp] theorem State.writeCtrl_resultMark (v : Word) : (s.writeCtrl v).resultMark = s.resultMark := rfl
@[simp] theorem State.writeCtrl_report (v : Word) : (s.writeCtrl v).report = s.report := rfl
@[simp] theorem State.writeCtrl_snap (v : Word) : (s.writeCtrl v).snap = s.snap := rfl
@[simp] theorem State.writeCtrl_freeCount (v : Word) : (s.writeCtrl v).freeCount = s.freeCount := rfl
@[simp] theorem State.writeCtrl_pending (v : Word) : (s.writeCtrl v).pending = s.pending := rfl
@[simp] theorem State.writeCtrl_readData (v : Word) : (s.writeCtrl v).readData = s.readData := rfl

/-! The fields after `placeCommand`. -/

@[simp] theorem State.placeCommand_sizes (v : Word) : (s.placeCommand v).sizes = s.sizes := rfl
@[simp] theorem State.placeCommand_ie (v : Word) : (s.placeCommand v).ie = s.ie := rfl
@[simp] theorem State.placeCommand_winEn (v : Word) : (s.placeCommand v).winEn = s.winEn := rfl
@[simp] theorem State.placeCommand_busy (v : Word) : (s.placeCommand v).busy = true := rfl
@[simp] theorem State.placeCommand_done (v : Word) : (s.placeCommand v).done = false := rfl
@[simp] theorem State.placeCommand_cmdLost (v : Word) : (s.placeCommand v).cmdLost = s.cmdLost := rfl
@[simp] theorem State.placeCommand_accErr (v : Word) : (s.placeCommand v).accErr = s.accErr := rfl
@[simp] theorem State.placeCommand_cacheState (v : Word) : (s.placeCommand v).cacheState = s.cacheState := rfl
@[simp] theorem State.placeCommand_err (v : Word) : (s.placeCommand v).err = s.err := rfl
@[simp] theorem State.placeCommand_lastCmd (v : Word) : (s.placeCommand v).lastCmd = v := rfl
@[simp] theorem State.placeCommand_argCinit (v : Word) : (s.placeCommand v).argCinit = s.argCinit := rfl
@[simp] theorem State.placeCommand_argLen (v : Word) : (s.placeCommand v).argLen = s.argLen := rfl
@[simp] theorem State.placeCommand_argId (v : Word) : (s.placeCommand v).argId = s.argId := rfl
@[simp] theorem State.placeCommand_argSps (v : Word) : (s.placeCommand v).argSps = s.argSps := rfl
@[simp] theorem State.placeCommand_argSlot (v : Word) : (s.placeCommand v).argSlot = s.argSlot := rfl
@[simp] theorem State.placeCommand_argSym (v : Word) : (s.placeCommand v).argSym = s.argSym := rfl
@[simp] theorem State.placeCommand_winCap (v : Word) : (s.placeCommand v).winCap = s.winCap := rfl
@[simp] theorem State.placeCommand_queryLen (v : Word) : (s.placeCommand v).queryLen = s.queryLen := rfl
@[simp] theorem State.placeCommand_queryLo (v : Word) : (s.placeCommand v).queryLo = s.queryLo := rfl
@[simp] theorem State.placeCommand_queryHi (v : Word) : (s.placeCommand v).queryHi = s.queryHi := rfl
@[simp] theorem State.placeCommand_resCinit (v : Word) : (s.placeCommand v).resCinit = s.resCinit := rfl
@[simp] theorem State.placeCommand_resCount (v : Word) : (s.placeCommand v).resCount = s.resCount := rfl
@[simp] theorem State.placeCommand_outLen (v : Word) : (s.placeCommand v).outLen = s.outLen := rfl
@[simp] theorem State.placeCommand_cacheLen (v : Word) : (s.placeCommand v).cacheLen = s.cacheLen := rfl
@[simp] theorem State.placeCommand_cacheSel (v : Word) : (s.placeCommand v).cacheSel = s.cacheSel := rfl
@[simp] theorem State.placeCommand_resultIdx (v : Word) : (s.placeCommand v).resultIdx = s.resultIdx := rfl
@[simp] theorem State.placeCommand_winSel (v : Word) : (s.placeCommand v).winSel = s.winSel := rfl
@[simp] theorem State.placeCommand_winIdx (v : Word) : (s.placeCommand v).winIdx = s.winIdx := rfl
@[simp] theorem State.placeCommand_x1 (v : Word) : (s.placeCommand v).x1 = s.x1 := rfl
@[simp] theorem State.placeCommand_x2 (v : Word) : (s.placeCommand v).x2 = s.x2 := rfl
@[simp] theorem State.placeCommand_outbuf (v : Word) : (s.placeCommand v).outbuf = s.outbuf := rfl
@[simp] theorem State.placeCommand_outbufMark (v : Word) : (s.placeCommand v).outbufMark = s.outbufMark := rfl
@[simp] theorem State.placeCommand_cache (v : Word) : (s.placeCommand v).cache = s.cache := rfl
@[simp] theorem State.placeCommand_cacheMark (v : Word) : (s.placeCommand v).cacheMark = s.cacheMark := rfl
@[simp] theorem State.placeCommand_result (v : Word) : (s.placeCommand v).result = s.result := rfl
@[simp] theorem State.placeCommand_resultMark (v : Word) : (s.placeCommand v).resultMark = s.resultMark := rfl
@[simp] theorem State.placeCommand_report (v : Word) : (s.placeCommand v).report = s.report := rfl
@[simp] theorem State.placeCommand_snap (v : Word) : (s.placeCommand v).snap = s.capture v := rfl
@[simp] theorem State.placeCommand_freeCount (v : Word) : (s.placeCommand v).freeCount = s.freeCount := rfl
@[simp] theorem State.placeCommand_pending (v : Word) : (s.placeCommand v).pending = .engine :: s.pending := rfl
@[simp] theorem State.placeCommand_readData (v : Word) : (s.placeCommand v).readData = s.readData := rfl

/-! The fields after `generate`. -/

@[simp] theorem State.generate_sizes (c : Word) : (s.generate c).sizes = s.sizes := rfl
@[simp] theorem State.generate_ie (c : Word) : (s.generate c).ie = s.ie := rfl
@[simp] theorem State.generate_winEn (c : Word) : (s.generate c).winEn = s.winEn := rfl
@[simp] theorem State.generate_busy (c : Word) : (s.generate c).busy = s.busy := rfl
@[simp] theorem State.generate_done (c : Word) : (s.generate c).done = s.done := rfl
@[simp] theorem State.generate_cmdLost (c : Word) : (s.generate c).cmdLost = s.cmdLost := rfl
@[simp] theorem State.generate_accErr (c : Word) : (s.generate c).accErr = s.accErr := rfl
@[simp] theorem State.generate_cacheState (c : Word) : (s.generate c).cacheState = s.cacheState := rfl
@[simp] theorem State.generate_err (c : Word) : (s.generate c).err = s.err := rfl
@[simp] theorem State.generate_lastCmd (c : Word) : (s.generate c).lastCmd = s.lastCmd := rfl
@[simp] theorem State.generate_argCinit (c : Word) : (s.generate c).argCinit = s.argCinit := rfl
@[simp] theorem State.generate_argLen (c : Word) : (s.generate c).argLen = s.argLen := rfl
@[simp] theorem State.generate_argId (c : Word) : (s.generate c).argId = s.argId := rfl
@[simp] theorem State.generate_argSps (c : Word) : (s.generate c).argSps = s.argSps := rfl
@[simp] theorem State.generate_argSlot (c : Word) : (s.generate c).argSlot = s.argSlot := rfl
@[simp] theorem State.generate_argSym (c : Word) : (s.generate c).argSym = s.argSym := rfl
@[simp] theorem State.generate_winCap (c : Word) : (s.generate c).winCap = s.winCap := rfl
@[simp] theorem State.generate_queryLen (c : Word) : (s.generate c).queryLen = s.queryLen := rfl
@[simp] theorem State.generate_queryLo (c : Word) : (s.generate c).queryLo = s.queryLo := rfl
@[simp] theorem State.generate_queryHi (c : Word) : (s.generate c).queryHi = s.queryHi := rfl
@[simp] theorem State.generate_resCinit (c : Word) : (s.generate c).resCinit = s.resCinit := rfl
@[simp] theorem State.generate_resCount (c : Word) : (s.generate c).resCount = s.resCount := rfl
@[simp] theorem State.generate_outLen (c : Word) : (s.generate c).outLen = s.snap.argLen := rfl
@[simp] theorem State.generate_cacheLen (c : Word) : (s.generate c).cacheLen = s.cacheLen := rfl
@[simp] theorem State.generate_cacheSel (c : Word) : (s.generate c).cacheSel = s.cacheSel := rfl
@[simp] theorem State.generate_resultIdx (c : Word) : (s.generate c).resultIdx = s.resultIdx := rfl
@[simp] theorem State.generate_winSel (c : Word) : (s.generate c).winSel = s.winSel := rfl
@[simp] theorem State.generate_winIdx (c : Word) : (s.generate c).winIdx = s.winIdx := rfl
@[simp] theorem State.generate_x1 (c : Word) : (s.generate c).x1 = (goldrun s.snap.window c s.snap.argLen.toNat).x1 := rfl
@[simp] theorem State.generate_x2 (c : Word) : (s.generate c).x2 = (goldrun s.snap.window c s.snap.argLen.toNat).x2 := rfl
@[simp] theorem State.generate_outbuf (c : Word) : (s.generate c).outbuf = s.outbuf.store 0 s.snap.argLen.toNat (packBits (goldrun s.snap.window c s.snap.argLen.toNat).bits) := rfl
@[simp] theorem State.generate_outbufMark (c : Word) : (s.generate c).outbufMark = s.outbufMark := rfl
@[simp] theorem State.generate_cache (c : Word) : (s.generate c).cache = s.cache := rfl
@[simp] theorem State.generate_cacheMark (c : Word) : (s.generate c).cacheMark = s.cacheMark := rfl
@[simp] theorem State.generate_result (c : Word) : (s.generate c).result = s.result := rfl
@[simp] theorem State.generate_resultMark (c : Word) : (s.generate c).resultMark = s.resultMark := rfl
@[simp] theorem State.generate_report (c : Word) : (s.generate c).report = s.report := rfl
@[simp] theorem State.generate_snap (c : Word) : (s.generate c).snap = s.snap := rfl
@[simp] theorem State.generate_freeCount (c : Word) : (s.generate c).freeCount = s.freeCount := rfl
@[simp] theorem State.generate_pending (c : Word) : (s.generate c).pending = s.pending := rfl
@[simp] theorem State.generate_readData (c : Word) : (s.generate c).readData = s.readData := rfl

/-! The fields after `buildCache`. -/

@[simp] theorem State.buildCache_sizes : s.buildCache.sizes = s.sizes := rfl
@[simp] theorem State.buildCache_ie : s.buildCache.ie = s.ie := rfl
@[simp] theorem State.buildCache_winEn : s.buildCache.winEn = s.winEn := rfl
@[simp] theorem State.buildCache_busy : s.buildCache.busy = s.busy := rfl
@[simp] theorem State.buildCache_done : s.buildCache.done = s.done := rfl
@[simp] theorem State.buildCache_cmdLost : s.buildCache.cmdLost = s.cmdLost := rfl
@[simp] theorem State.buildCache_accErr : s.buildCache.accErr = s.accErr := rfl
@[simp] theorem State.buildCache_cacheState : s.buildCache.cacheState = .valid := rfl
@[simp] theorem State.buildCache_err : s.buildCache.err = s.err := rfl
@[simp] theorem State.buildCache_lastCmd : s.buildCache.lastCmd = s.lastCmd := rfl
@[simp] theorem State.buildCache_argCinit : s.buildCache.argCinit = s.argCinit := rfl
@[simp] theorem State.buildCache_argLen : s.buildCache.argLen = s.argLen := rfl
@[simp] theorem State.buildCache_argId : s.buildCache.argId = s.argId := rfl
@[simp] theorem State.buildCache_argSps : s.buildCache.argSps = s.argSps := rfl
@[simp] theorem State.buildCache_argSlot : s.buildCache.argSlot = s.argSlot := rfl
@[simp] theorem State.buildCache_argSym : s.buildCache.argSym = s.argSym := rfl
@[simp] theorem State.buildCache_winCap : s.buildCache.winCap = s.winCap := rfl
@[simp] theorem State.buildCache_queryLen : s.buildCache.queryLen = s.queryLen := rfl
@[simp] theorem State.buildCache_queryLo : s.buildCache.queryLo = s.queryLo := rfl
@[simp] theorem State.buildCache_queryHi : s.buildCache.queryHi = s.queryHi := rfl
@[simp] theorem State.buildCache_resCinit : s.buildCache.resCinit = s.resCinit := rfl
@[simp] theorem State.buildCache_resCount : s.buildCache.resCount = s.resCount := rfl
@[simp] theorem State.buildCache_outLen : s.buildCache.outLen = s.outLen := rfl
@[simp] theorem State.buildCache_cacheLen : s.buildCache.cacheLen = s.snap.argLen := rfl
@[simp] theorem State.buildCache_cacheSel : s.buildCache.cacheSel = s.cacheSel := rfl
@[simp] theorem State.buildCache_resultIdx : s.buildCache.resultIdx = s.resultIdx := rfl
@[simp] theorem State.buildCache_winSel : s.buildCache.winSel = s.winSel := rfl
@[simp] theorem State.buildCache_winIdx : s.buildCache.winIdx = s.winIdx := rfl
@[simp] theorem State.buildCache_x1 : s.buildCache.x1 = (s.snap.buildRun 65535).x1 := rfl
@[simp] theorem State.buildCache_x2 : s.buildCache.x2 = (s.snap.buildRun 65535).x2 := rfl
@[simp] theorem State.buildCache_outbuf : s.buildCache.outbuf = s.outbuf := rfl
@[simp] theorem State.buildCache_outbufMark : s.buildCache.outbufMark = s.outbufMark := rfl
@[simp] theorem State.buildCache_cache : s.buildCache.cache = Memory.tabulate CacheEntry.blank Config.numIds s.builtEntry := rfl
@[simp] theorem State.buildCache_cacheMark : s.buildCache.cacheMark = s.cacheMark := rfl
@[simp] theorem State.buildCache_result : s.buildCache.result = s.result := rfl
@[simp] theorem State.buildCache_resultMark : s.buildCache.resultMark = s.resultMark := rfl
@[simp] theorem State.buildCache_report : s.buildCache.report = s.report := rfl
@[simp] theorem State.buildCache_snap : s.buildCache.snap = s.snap := rfl
@[simp] theorem State.buildCache_freeCount : s.buildCache.freeCount = s.freeCount := rfl
@[simp] theorem State.buildCache_pending : s.buildCache.pending = s.pending := rfl
@[simp] theorem State.buildCache_readData : s.buildCache.readData = s.readData := rfl

/-! The fields after `recover` and `identifiability`. -/

@[simp] theorem State.recover_sizes : s.recover.sizes = s.sizes := rfl
@[simp] theorem State.recover_ie : s.recover.ie = s.ie := rfl
@[simp] theorem State.recover_winEn : s.recover.winEn = s.winEn := rfl
@[simp] theorem State.recover_busy : s.recover.busy = s.busy := rfl
@[simp] theorem State.recover_done : s.recover.done = s.done := rfl
@[simp] theorem State.recover_cmdLost : s.recover.cmdLost = s.cmdLost := rfl
@[simp] theorem State.recover_accErr : s.recover.accErr = s.accErr := rfl
@[simp] theorem State.recover_cacheState : s.recover.cacheState = s.cacheState := rfl
@[simp] theorem State.recover_err : s.recover.err = s.err := rfl
@[simp] theorem State.recover_lastCmd : s.recover.lastCmd = s.lastCmd := rfl
@[simp] theorem State.recover_argCinit : s.recover.argCinit = s.argCinit := rfl
@[simp] theorem State.recover_argLen : s.recover.argLen = s.argLen := rfl
@[simp] theorem State.recover_argId : s.recover.argId = s.argId := rfl
@[simp] theorem State.recover_argSps : s.recover.argSps = s.argSps := rfl
@[simp] theorem State.recover_argSlot : s.recover.argSlot = s.argSlot := rfl
@[simp] theorem State.recover_argSym : s.recover.argSym = s.argSym := rfl
@[simp] theorem State.recover_winCap : s.recover.winCap = s.winCap := rfl
@[simp] theorem State.recover_queryLen : s.recover.queryLen = s.queryLen := rfl
@[simp] theorem State.recover_queryLo : s.recover.queryLo = s.queryLo := rfl
@[simp] theorem State.recover_queryHi : s.recover.queryHi = s.queryHi := rfl
@[simp] theorem State.recover_resCinit : s.recover.resCinit = s.resCinit := rfl
@[simp] theorem State.recover_outLen : s.recover.outLen = s.outLen := rfl
@[simp] theorem State.recover_cacheLen : s.recover.cacheLen = s.cacheLen := rfl
@[simp] theorem State.recover_cacheSel : s.recover.cacheSel = s.cacheSel := rfl
@[simp] theorem State.recover_resultIdx : s.recover.resultIdx = s.resultIdx := rfl
@[simp] theorem State.recover_winSel : s.recover.winSel = s.winSel := rfl
@[simp] theorem State.recover_winIdx : s.recover.winIdx = s.winIdx := rfl
@[simp] theorem State.recover_x1 : s.recover.x1 = s.x1 := rfl
@[simp] theorem State.recover_x2 : s.recover.x2 = s.x2 := rfl
@[simp] theorem State.recover_outbuf : s.recover.outbuf = s.outbuf := rfl
@[simp] theorem State.recover_outbufMark : s.recover.outbufMark = s.outbufMark := rfl
@[simp] theorem State.recover_cache : s.recover.cache = s.cache := rfl
@[simp] theorem State.recover_cacheMark : s.recover.cacheMark = s.cacheMark := rfl
@[simp] theorem State.recover_resultMark : s.recover.resultMark = s.resultMark := rfl
@[simp] theorem State.recover_report : s.recover.report = s.report := rfl
@[simp] theorem State.recover_snap : s.recover.snap = s.snap := rfl
@[simp] theorem State.recover_freeCount : s.recover.freeCount = s.freeCount := rfl
@[simp] theorem State.recover_pending : s.recover.pending = s.pending := rfl
@[simp] theorem State.recover_readData : s.recover.readData = s.readData := rfl
@[simp] theorem State.identifiability_sizes : s.identifiability.sizes = s.sizes := by unfold State.identifiability; rfl
@[simp] theorem State.identifiability_ie : s.identifiability.ie = s.ie := by unfold State.identifiability; rfl
@[simp] theorem State.identifiability_winEn : s.identifiability.winEn = s.winEn := by unfold State.identifiability; rfl
@[simp] theorem State.identifiability_busy : s.identifiability.busy = s.busy := by unfold State.identifiability; rfl
@[simp] theorem State.identifiability_done : s.identifiability.done = s.done := by unfold State.identifiability; rfl
@[simp] theorem State.identifiability_cmdLost : s.identifiability.cmdLost = s.cmdLost := by unfold State.identifiability; rfl
@[simp] theorem State.identifiability_accErr : s.identifiability.accErr = s.accErr := by unfold State.identifiability; rfl
@[simp] theorem State.identifiability_cacheState : s.identifiability.cacheState = s.cacheState := by unfold State.identifiability; rfl
@[simp] theorem State.identifiability_err : s.identifiability.err = s.err := by unfold State.identifiability; rfl
@[simp] theorem State.identifiability_lastCmd : s.identifiability.lastCmd = s.lastCmd := by unfold State.identifiability; rfl
@[simp] theorem State.identifiability_argCinit : s.identifiability.argCinit = s.argCinit := by unfold State.identifiability; rfl
@[simp] theorem State.identifiability_argLen : s.identifiability.argLen = s.argLen := by unfold State.identifiability; rfl
@[simp] theorem State.identifiability_argId : s.identifiability.argId = s.argId := by unfold State.identifiability; rfl
@[simp] theorem State.identifiability_argSps : s.identifiability.argSps = s.argSps := by unfold State.identifiability; rfl
@[simp] theorem State.identifiability_argSlot : s.identifiability.argSlot = s.argSlot := by unfold State.identifiability; rfl
@[simp] theorem State.identifiability_argSym : s.identifiability.argSym = s.argSym := by unfold State.identifiability; rfl
@[simp] theorem State.identifiability_winCap : s.identifiability.winCap = s.winCap := by unfold State.identifiability; rfl
@[simp] theorem State.identifiability_queryLen : s.identifiability.queryLen = s.queryLen := by unfold State.identifiability; rfl
@[simp] theorem State.identifiability_queryLo : s.identifiability.queryLo = s.queryLo := by unfold State.identifiability; rfl
@[simp] theorem State.identifiability_queryHi : s.identifiability.queryHi = s.queryHi := by unfold State.identifiability; rfl
@[simp] theorem State.identifiability_resCinit : s.identifiability.resCinit = s.resCinit := by unfold State.identifiability; rfl
@[simp] theorem State.identifiability_resCount : s.identifiability.resCount = s.resCount := by unfold State.identifiability; rfl
@[simp] theorem State.identifiability_outLen : s.identifiability.outLen = s.outLen := by unfold State.identifiability; rfl
@[simp] theorem State.identifiability_cacheLen : s.identifiability.cacheLen = s.cacheLen := by unfold State.identifiability; rfl
@[simp] theorem State.identifiability_cacheSel : s.identifiability.cacheSel = s.cacheSel := by unfold State.identifiability; rfl
@[simp] theorem State.identifiability_resultIdx : s.identifiability.resultIdx = s.resultIdx := by unfold State.identifiability; rfl
@[simp] theorem State.identifiability_winSel : s.identifiability.winSel = s.winSel := by unfold State.identifiability; rfl
@[simp] theorem State.identifiability_winIdx : s.identifiability.winIdx = s.winIdx := by unfold State.identifiability; rfl
@[simp] theorem State.identifiability_x1 : s.identifiability.x1 = s.x1 := by unfold State.identifiability; rfl
@[simp] theorem State.identifiability_x2 : s.identifiability.x2 = s.x2 := by unfold State.identifiability; rfl
@[simp] theorem State.identifiability_outbuf : s.identifiability.outbuf = s.outbuf := by unfold State.identifiability; rfl
@[simp] theorem State.identifiability_outbufMark : s.identifiability.outbufMark = s.outbufMark := by unfold State.identifiability; rfl
@[simp] theorem State.identifiability_cache : s.identifiability.cache = s.cache := by unfold State.identifiability; rfl
@[simp] theorem State.identifiability_cacheMark : s.identifiability.cacheMark = s.cacheMark := by unfold State.identifiability; rfl
@[simp] theorem State.identifiability_result : s.identifiability.result = s.result := by unfold State.identifiability; rfl
@[simp] theorem State.identifiability_resultMark : s.identifiability.resultMark = s.resultMark := by unfold State.identifiability; rfl
@[simp] theorem State.identifiability_report : s.identifiability.report = s.reportWords := rfl
@[simp] theorem State.identifiability_snap : s.identifiability.snap = s.snap := by unfold State.identifiability; rfl
@[simp] theorem State.identifiability_freeCount : s.identifiability.freeCount = s.freeCount := by unfold State.identifiability; rfl
@[simp] theorem State.identifiability_pending : s.identifiability.pending = s.pending := by unfold State.identifiability; rfl
@[simp] theorem State.identifiability_readData : s.identifiability.readData = s.readData := by unfold State.identifiability; rfl

end Sys2Proof.Machine
end

