-- ==== Sys2Proof/Laws/Completion.lean ====
section
/-! SUPPORT. Completion: everything a checked command, a raised error and an acceptance can do. -/

namespace Sys2Proof.Machine

/-- A raised error answers the completed state. -/
@[simp] theorem raiseError_eq (e : ErrCode) (s : State) : raiseError e s = .next (s.finish e) := rfl

/-- A success answers the completed state. -/
@[simp] theorem succeed_eq (s : State) : succeed s = .next (s.finish .noError) := rfl

/-- A checked command whose checks find no error has its effect. -/
theorem runChecked_ok (checks : List (Bool × ErrCode)) (effect : State → State) (s : State)
    (h : firstError checks = .noError) : runChecked checks effect s = .next ((effect s).finish .noError) := by
  simp [runChecked, h]

/-- A checked command whose checks find an error has no effect but its code. -/
theorem runChecked_error (checks : List (Bool × ErrCode)) (effect : State → State) (s : State)
    (h : firstError checks ≠ .noError) : runChecked checks effect s = .next (s.finish (firstError checks)) := by
  unfold runChecked
  split
  · contradiction
  · rfl

/-- Everything a checked command can do. -/
theorem runChecked_cases (checks : List (Bool × ErrCode)) (effect : State → State) (s t : State)
    (h : runChecked checks effect s = .next t) :
    (firstError checks = .noError ∧ t = (effect s).finish .noError) ∨
      (firstError checks ≠ .noError ∧ t = s.finish (firstError checks)) := by
  by_cases hc : firstError checks = .noError
  · rw [runChecked_ok _ _ _ hc] at h
    exact .inl ⟨hc, (Host.Outcome.next.inj h).symm⟩
  · rw [runChecked_error _ _ _ hc] at h
    exact .inr ⟨hc, (Host.Outcome.next.inj h).symm⟩

/-- Everything COMMIT can do (43_seed_cache.md R106). -/
theorem execCommit_cases (s t : State) (h : execCommit s = .next t) :
    (firstError (commitChecks s.sizes s.snap) ≠ .noError ∧ t = s.finish (firstError (commitChecks s.sizes s.snap))) ∨
      (firstError (commitChecks s.sizes s.snap) = .noError ∧ s.everyLenIs s.snap.argLen = true ∧
        t = { s with cacheLen := s.snap.argLen, cacheState := .valid }.finish .noError) ∨
      (firstError (commitChecks s.sizes s.snap) = .noError ∧ s.everyLenIs s.snap.argLen = false ∧
        t = { s with cacheLen := s.snap.argLen, cacheState := .stale }.finish .cacheMismatch) := by
  cases hc : firstError (commitChecks s.sizes s.snap) <;> simp [execCommit, hc] at h ⊢
  case noError => cases hl : s.everyLenIs s.snap.argLen <;> simp [hl] at h ⊢ <;> exact h.symm
  all_goals exact h.symm

/-- No error is found exactly when no condition holds. -/
theorem firstError_noError_iff (checks : List (Bool × ErrCode)) (h : ∀ c ∈ checks, c.2 ≠ .noError) :
    firstError checks = .noError ↔ ∀ c ∈ checks, c.1 = false := by
  induction checks with
  | nil => simp [firstError]
  | cons c cs ih =>
    obtain ⟨bad, e⟩ := c
    have he : e ≠ .noError := h (bad, e) List.mem_cons_self
    have ih' := ih fun c hc => h c (List.mem_cons_of_mem _ hc)
    cases bad <;> simp [firstError, he, ih']

/-- The snapshot of an acceptance holds the word. -/
@[simp] theorem State.capture_cmd (s : State) (v : Word) : (s.capture v).cmd = v := rfl

end Sys2Proof.Machine
end

