-- ==== Sys2Proof/Laws/Lfsr.lean ====
section
/-! SUPPORT. The LFSR units: what one advance leaves, field by field, and what many advances leave. -/

namespace Sys2Proof.Machine

variable (taps : List Nat) (window : Option Nat) (u : Lfsr)

@[simp] theorem Lfsr.adv_last : (u.adv taps window).last = u.feedback taps := rfl
@[simp] theorem Lfsr.adv_cnt : (u.adv taps window).cnt = u.cnt + 1#32 := rfl
@[simp] theorem Lfsr.adv_ptr : (u.adv taps window).ptr = u.ptr + 1 := rfl
@[simp] theorem Lfsr.adv_phys : (u.adv taps window).phys = writeBit u.phys u.ptr.val (u.feedback taps) := rfl

theorem Lfsr.ptr_succ_val : (u.ptr + 1).val = (u.ptr.val + 1) % 31 := Fin.val_add u.ptr 1

/-- Without recording an advance leaves the window. -/
@[simp] theorem Lfsr.adv_win_none : (u.adv taps none).win = u.win := rfl
/-- With recording an advance pushes the returned bit. -/
@[simp] theorem Lfsr.adv_win_some (K : Nat) : (u.adv taps (some K)).win = winpush u.win (u.feedback taps) K := rfl

/-- The feedback of X1 (40_lfsr.md R79, R80). -/
theorem Lfsr.feedback_tapsX1 : u.feedback tapsX1 = (u.seq 3 ^^ u.seq 0) := by
  simp [Lfsr.feedback, tapsX1, xorAll]

/-- The feedback of X2 (40_lfsr.md R79, R80). -/
theorem Lfsr.feedback_tapsX2 : u.feedback tapsX2 = (u.seq 3 ^^ u.seq 2 ^^ u.seq 1 ^^ u.seq 0) := by
  simp [Lfsr.feedback, tapsX2, xorAll]

/-- An advance shifts the logical view by one; the newest bit is the feedback (10_state.md R16, 40_lfsr.md R82). -/
theorem Lfsr.seq_adv (j : Nat) (hj : j < 31) :
    (u.adv taps window).seq j = if j = 30 then u.feedback taps else u.seq (j + 1) := by
  have hp := u.ptr.isLt
  rw [Lfsr.seq, Lfsr.adv_phys, Lfsr.adv_ptr, Lfsr.ptr_succ_val, getLsbD_writeBit _ _ _ _ hp]
  by_cases h : j = 30
  · subst h
    have : ((u.ptr.val + 1) % 31 + 30) % 31 = u.ptr.val := by omega
    simp [this]
  · have h1 : ((u.ptr.val + 1) % 31 + j) % 31 = (u.ptr.val + (j + 1)) % 31 := by omega
    have h2 : (u.ptr.val + (j + 1)) % 31 ≠ u.ptr.val := by omega
    rw [h1, if_neg h2, if_neg h, Lfsr.seq]

@[simp] theorem Lfsr.advN_zero : u.advN taps window 0 = u := rfl
theorem Lfsr.advN_succ (n : Nat) : u.advN taps window (n + 1) = (u.adv taps window).advN taps window n := rfl

/-- The last of `n + 1` advances is an advance of what `n` leave. -/
theorem Lfsr.advN_succ_last (n : Nat) : u.advN taps window (n + 1) = (u.advN taps window n).adv taps window := by
  induction n generalizing u with
  | zero => rfl
  | succ n ih => rw [Lfsr.advN_succ, ih, Lfsr.advN_succ]

/-- `m + n` advances are `m` and then `n`. -/
theorem Lfsr.advN_add (m n : Nat) : u.advN taps window (m + n) = (u.advN taps window m).advN taps window n := by
  induction m generalizing u with
  | zero => simp
  | succ m ih => rw [Nat.succ_add, Lfsr.advN_succ, ih, Lfsr.advN_succ]

/-- The advance count grows by the number of advances, modulo 2^32 (60_exceptions.md R133). -/
theorem Lfsr.advN_cnt (n : Nat) : (u.advN taps window n).cnt = u.cnt + BitVec.ofNat 32 n := by
  induction n with
  | zero => simp
  | succ n ih => rw [Lfsr.advN_succ_last, Lfsr.adv_cnt, ih, BitVec.add_assoc, ← BitVec.ofNat_add]

/-- The pointer moves by the number of advances, modulo 31. -/
theorem Lfsr.advN_ptr (n : Nat) : (u.advN taps window n).ptr.val = (u.ptr.val + n) % 31 := by
  induction n with
  | zero => simp [Nat.mod_eq_of_lt u.ptr.isLt]
  | succ n ih => rw [Lfsr.advN_succ_last, Lfsr.adv_ptr, Lfsr.ptr_succ_val, ih]; omega

/-- Without recording no advance touches the window. -/
@[simp] theorem Lfsr.advN_win_none (n : Nat) : (u.advN taps none n).win = u.win := by
  induction n with
  | zero => rfl
  | succ n ih => rw [Lfsr.advN_succ_last, Lfsr.adv_win_none, ih]

/-- The state that advances read does not depend on the window (40_lfsr.md R82). -/
theorem Lfsr.adv_phys_window (w w' : Option Nat) (v : Lfsr) (hp : u.phys = v.phys) (hq : u.ptr = v.ptr) :
    (u.adv taps w).phys = (v.adv taps w').phys ∧ (u.adv taps w).ptr = (v.adv taps w').ptr := by
  have hs : u.seq = v.seq := by funext j; simp [Lfsr.seq, hp, hq]
  simp [Lfsr.feedback, hs, hp, hq]

/-- The length of a window after a push (40_lfsr.md R83). -/
theorem length_winpush (w : List Bool) (b : Bool) (K : Nat) : (winpush w b K).length = min (w.length + 1) K := by
  simp [winpush]; omega

/-- The physical array recovered from the logical view (10_state.md R16). -/
theorem Lfsr.phys_getLsbD (k : Nat) (hk : k < 31) : u.phys.getLsbD k = u.seq ((k + 31 - u.ptr.val) % 31) := by
  have hp := u.ptr.isLt
  unfold Lfsr.seq
  congr 1
  omega

/-- The last bit after advances is the feedback of the unit before the last of them (40_lfsr.md R82). -/
theorem Lfsr.advN_last (n : Nat) (h : 0 < n) :
    (u.advN taps window n).last = (u.advN taps window (n - 1)).feedback taps := by
  obtain ⟨m, rfl⟩ : ∃ m, n = m + 1 := ⟨n - 1, by omega⟩
  rw [Lfsr.advN_succ_last, Lfsr.adv_last, Nat.add_sub_cancel]

/-- Advances carry the logical view along any sequence that continues it by the unit's feedback `fb` (10_state.md R16). -/
theorem Lfsr.advN_follows (fb : (Nat → Bool) → Bool) (hf : ∀ v : Lfsr, v.feedback taps = fb v.seq)
    (hc : ∀ f g : Nat → Bool, (∀ j, j < 31 → f j = g j) → fb f = fb g) (x : Nat → Bool)
    (h0 : ∀ j, j < 31 → x j = u.seq j) (hr : ∀ k, x (k + 31) = fb fun j => x (k + j)) (n : Nat) :
    (∀ j, j < 31 → (u.advN taps window n).seq j = x (n + j)) ∧ (u.advN taps window n).feedback taps = x (n + 31) := by
  have key : ∀ n, (∀ j, j < 31 → (u.advN taps window n).seq j = x (n + j)) →
      (u.advN taps window n).feedback taps = x (n + 31) := by
    intro n h
    rw [hf, hr]
    exact hc _ _ h
  induction n with
  | zero => refine ⟨?_, key 0 ?_⟩ <;> (intro j hj; simpa using (h0 j hj).symm)
  | succ n ih =>
    have hs : ∀ j, j < 31 → (u.advN taps window (n + 1)).seq j = x (n + 1 + j) := by
      intro j hj
      rw [Lfsr.advN_succ_last, Lfsr.seq_adv _ _ _ _ hj]
      split
      · rename_i h
        subst h
        rw [ih.2]
      · rw [ih.1 (j + 1) (by omega)]
        congr 1
        omega
    exact ⟨hs, key _ hs⟩

/-- With recording the window is the fold of the pushes of the returned bits (40_lfsr.md R82, R83). -/
theorem Lfsr.advN_win_some (K n : Nat) :
    (u.advN taps (some K) n).win =
      ((List.range n).map fun m => (u.advN taps (some K) m).feedback taps).foldl (fun w b => winpush w b K) u.win := by
  induction n with
  | zero => rfl
  | succ n ih =>
    rw [Lfsr.advN_succ_last, Lfsr.adv_win_some, List.range_succ, List.map_append, List.foldl_append, ← ih]
    rfl

/-- Pushing some bits keeps the last `K` of the window and the bits (40_lfsr.md R83). -/
theorem foldl_winpush (w bits : List Bool) (K : Nat) (h : bits ≠ []) :
    bits.foldl (fun w b => winpush w b K) w = (w ++ bits).drop ((w ++ bits).length - K) := by
  induction bits generalizing w with
  | nil => exact absurd rfl h
  | cons b bs ih =>
    cases bs with
    | nil => simp [winpush]
    | cons b' bs' =>
      rw [List.foldl_cons, ih _ (by simp), winpush]
      have hl : w.length + 1 - K ≤ (w ++ [b]).length := by
        rw [List.length_append, List.length_singleton]
        omega
      have ha : (w ++ [b]).drop (w.length + 1 - K) ++ b' :: bs' = (w ++ b :: b' :: bs').drop (w.length + 1 - K) := by
        rw [show w ++ b :: b' :: bs' = (w ++ [b]) ++ b' :: bs' by simp, List.drop_append_of_le_length hl]
      rw [ha, List.drop_drop]
      congr 1
      simp only [List.length_drop, List.length_append, List.length_cons]
      omega

end Sys2Proof.Machine
end

