-- ==== Sys2Proof/Laws/Gold.lean ====
section
/-! SUPPORT. What a generation run leaves: both units and as many bits as were asked for (41_gold.md R91). -/

namespace Sys2Proof.Machine

variable (window : Option Nat)

@[simp] theorem goldEmit_zero (x1 x2 : Lfsr) : goldEmit window 0 x1 x2 = ⟨x1, x2, []⟩ := rfl

/-- X1 after the emitting advances. -/
theorem goldEmit_x1 (n : Nat) (x1 x2 : Lfsr) : (goldEmit window n x1 x2).x1 = x1.advN tapsX1 window n := by
  induction n generalizing x1 x2 with
  | zero => rfl
  | succ n ih => exact ih _ _

/-- X2 after the emitting advances. -/
theorem goldEmit_x2 (n : Nat) (x1 x2 : Lfsr) : (goldEmit window n x1 x2).x2 = x2.advN tapsX2 window n := by
  induction n generalizing x1 x2 with
  | zero => rfl
  | succ n ih => exact ih _ _

/-- One bit is emitted per joint advance. -/
@[simp] theorem goldEmit_length (n : Nat) (x1 x2 : Lfsr) : (goldEmit window n x1 x2).bits.length = n := by
  induction n generalizing x1 x2 with
  | zero => rfl
  | succ n ih => simp [goldEmit, ih]

/-- Emitted bit `i` is the sum modulo 2 of the bits that the units' advances number `i + 1` return. -/
theorem goldEmit_bit (n i : Nat) (x1 x2 : Lfsr) (hi : i < n) :
    (goldEmit window n x1 x2).bits[i]? =
      some ((x1.advN tapsX1 window i).feedback tapsX1 ^^ (x2.advN tapsX2 window i).feedback tapsX2) := by
  induction n generalizing x1 x2 i with
  | zero => omega
  | succ n ih =>
    cases i with
    | zero => simp [goldEmit]
    | succ i =>
      have := ih i (x1.adv tapsX1 window) (x2.adv tapsX2 window) (by omega)
      simpa [goldEmit, Lfsr.advN_succ] using this

/-- X1 after a run. -/
theorem goldrun_x1 (c : Word) (L : Nat) : (goldrun window c L).x1 = loadX1.advN tapsX1 window (Config.discard + L) := by
  rw [goldrun, goldEmit_x1, Lfsr.advN_add]

/-- X2 after a run. -/
theorem goldrun_x2 (c : Word) (L : Nat) :
    (goldrun window c L).x2 = (loadX2 c).advN tapsX2 window (Config.discard + L) := by
  rw [goldrun, goldEmit_x2, Lfsr.advN_add]

/-- A run emits as many bits as were asked for. -/
@[simp] theorem goldrun_length (c : Word) (L : Nat) : (goldrun window c L).bits.length = L := by simp [goldrun]

end Sys2Proof.Machine
end

