-- ==== Sys2Proof/Laws/Memory.lean ====
section
/-! SUPPORT. Sparse memories: reading after each operation, and that each keeps the canonical form. -/

namespace Sys2Proof.Machine

variable {α : Type}

@[simp] theorem Memory.find?_nil (a : Nat) : Memory.find? ([] : Memory α) a = none := rfl

@[simp] theorem Memory.find?_cons (b : Nat) (w : α) (m : Memory α) (a : Nat) :
    Memory.find? ((b, w) :: m) a = if a = b then some w else Memory.find? m a := rfl

/-- A key with a content is listed with it. -/
theorem Memory.mem_of_find? (m : Memory α) (a : Nat) (v : α) (h : Memory.find? m a = some v) : (a, v) ∈ m := by
  induction m with
  | nil => simp at h
  | cons e m ih =>
    obtain ⟨b, w⟩ := e
    rw [Memory.find?_cons] at h
    split at h
    · rename_i hab; subst hab; cases h; simp
    · exact List.mem_cons_of_mem _ (ih h)

/-- A key that no entry lists has no content. -/
theorem Memory.find?_eq_none_iff (m : Memory α) (a : Nat) : Memory.find? m a = none ↔ ∀ e ∈ m, e.1 ≠ a := by
  induction m with
  | nil => simp
  | cons e m ih =>
    obtain ⟨b, w⟩ := e
    rw [Memory.find?_cons]
    by_cases h : a = b
    · subst h; simp
    · simp [h, ih, Ne.symm h]

/-- With rising keys an entry is found at its key. -/
theorem Memory.find?_of_mem (m : Memory α) (hs : m.sorted) (a : Nat) (v : α) (h : (a, v) ∈ m) :
    Memory.find? m a = some v := by
  induction m with
  | nil => simp at h
  | cons e m ih =>
    obtain ⟨b, w⟩ := e
    rw [Memory.find?_cons]
    rcases List.mem_cons.1 h with h | h
    · cases h; simp
    · have hlt := (List.pairwise_cons.1 hs).1 _ h
      have : a ≠ b := by simp at hlt; omega
      simp [this, ih (List.pairwise_cons.1 hs).2 h]

theorem Memory.find?_put (m : Memory α) (a : Nat) (v : α) (x : Nat) :
    Memory.find? (m.put a v) x = if x = a then some v else Memory.find? m x := by
  induction m with
  | nil => simp [Memory.put]
  | cons e m ih =>
    obtain ⟨b, w⟩ := e
    unfold Memory.put
    split
    · simp
    · split
      · rename_i h; subst h
        by_cases hx : x = a <;> simp [hx]
      · rename_i h
        by_cases hx : x = a
        · subst hx; simp [h, ih]
        · simp [ih, hx]

theorem Memory.find?_erase (m : Memory α) (a x : Nat) :
    Memory.find? (m.erase a) x = if x = a then none else Memory.find? m x := by
  induction m with
  | nil => simp [Memory.erase]
  | cons e m ih =>
    obtain ⟨b, w⟩ := e
    unfold Memory.erase at ih ⊢
    by_cases hb : b = a
    · subst hb
      by_cases hx : x = b
      · subst hx; simpa using ih
      · simpa [hx] using ih
    · by_cases hx : x = b
      · subst hx; simp [hb]
      · simp [hb, hx, ih]

/-- Reading after a write: the written key gives the value written, every other key reads as before. -/
theorem Memory.get_set [DecidableEq α] (d : α) (m : Memory α) (a : Nat) (v : α) (x : Nat) :
    Memory.get d (Memory.set d m a v) x = if x = a then v else Memory.get d m x := by
  unfold Memory.get Memory.set
  by_cases hv : v = d
  · subst hv
    by_cases hx : x = a <;> simp [hx, Memory.find?_erase]
  · by_cases hx : x = a <;> simp [hv, hx, Memory.find?_put]

theorem Memory.mem_put (m : Memory α) (a : Nat) (v : α) (e : Nat × α) (h : e ∈ m.put a v) : e = (a, v) ∨ e ∈ m := by
  induction m with
  | nil => simpa [Memory.put] using h
  | cons f m ih =>
    obtain ⟨b, w⟩ := f
    unfold Memory.put at h
    split at h
    · simpa using h
    · split at h
      · rcases List.mem_cons.1 h with h | h
        · exact .inl h
        · exact .inr (List.mem_cons_of_mem _ h)
      · rcases List.mem_cons.1 h with h | h
        · exact .inr (h ▸ List.mem_cons_self)
        · rcases ih h with h | h
          · exact .inl h
          · exact .inr (List.mem_cons_of_mem _ h)

theorem Memory.put_sorted (m : Memory α) (a : Nat) (v : α) (hs : m.sorted) : (m.put a v).sorted := by
  induction m with
  | nil => simp [Memory.put]
  | cons f m ih =>
    obtain ⟨b, w⟩ := f
    have hs' := List.pairwise_cons.1 hs
    unfold Memory.put
    split
    · rename_i hab
      refine List.pairwise_cons.2 ⟨?_, hs⟩
      intro e he
      rcases List.mem_cons.1 he with he | he
      · subst he; exact hab
      · exact Nat.lt_trans hab (hs'.1 e he)
    · split
      · rename_i hab; subst hab
        exact List.pairwise_cons.2 ⟨fun e he => hs'.1 e he, hs'.2⟩
      · rename_i h1 h2
        refine List.pairwise_cons.2 ⟨?_, ih hs'.2⟩
        intro e he
        rcases Memory.mem_put m a v e he with he | he
        · subst he; show b < a; omega
        · exact hs'.1 e he

theorem Memory.erase_sorted (m : Memory α) (a : Nat) (hs : m.sorted) : (m.erase a).sorted := hs.filter _

/-- A write keeps the canonical form. -/
theorem Memory.set_wf [DecidableEq α] (d : α) (m : Memory α) (a : Nat) (v : α) (h : Memory.wf d m) :
    Memory.wf d (Memory.set d m a v) := by
  unfold Memory.set
  split
  · exact ⟨m.erase_sorted a h.1, fun e he => h.2 e (List.mem_filter.1 he).1⟩
  · rename_i hv
    refine ⟨m.put_sorted a v h.1, fun e he => ?_⟩
    rcases m.mem_put a v e he with he | he
    · subst he; exact hv
    · exact h.2 e he

/-- What a write lists: the written entry, or an entry that was listed. -/
theorem Memory.mem_set [DecidableEq α] (d : α) (m : Memory α) (a : Nat) (v : α) (e : Nat × α)
    (h : e ∈ Memory.set d m a v) : e = (a, v) ∨ e ∈ m := by
  unfold Memory.set at h
  split at h
  · exact .inr (List.mem_filter.1 h).1
  · exact m.mem_put a v e h

/-- What a tabulated memory lists. -/
theorem Memory.mem_tabulate [DecidableEq α] (d : α) (n : Nat) (f : Nat → α) (e : Nat × α) :
    e ∈ Memory.tabulate d n f ↔ e.1 < n ∧ e.2 = f e.1 ∧ f e.1 ≠ d := by
  obtain ⟨a, v⟩ := e
  simp only [Memory.tabulate, List.mem_filterMap, List.mem_range'_1]
  constructor
  · rintro ⟨b, ⟨_, hb⟩, h⟩
    split at h
    · simp at h
    · rename_i hne
      cases h
      exact ⟨by omega, rfl, hne⟩
  · rintro ⟨ha, hv, hne⟩
    have hv' : v = f a := hv
    exact ⟨a, ⟨Nat.zero_le _, by simpa using ha⟩, by simp [hne, hv']⟩

theorem Memory.tabulate_sorted [DecidableEq α] (d : α) (n : Nat) (f : Nat → α) : (Memory.tabulate d n f).sorted := by
  unfold Memory.sorted Memory.tabulate
  rw [List.pairwise_filterMap]
  refine List.Pairwise.imp ?_ (List.pairwise_lt_range' (s := 0) (n := n) (step := 1))
  intro a b hab x hx y hy
  split at hx <;> simp at hx
  split at hy <;> simp at hy
  subst hx; subst hy; exact hab

/-- A tabulated memory is canonical. -/
theorem Memory.tabulate_wf [DecidableEq α] (d : α) (n : Nat) (f : Nat → α) : Memory.wf d (Memory.tabulate d n f) := by
  refine ⟨Memory.tabulate_sorted d n f, fun e he => ?_⟩
  have h := (Memory.mem_tabulate d n f e).1 he
  rw [h.2.1]; exact h.2.2

/-- Reading a tabulated memory. -/
theorem Memory.get_tabulate [DecidableEq α] (d : α) (n : Nat) (f : Nat → α) (a : Nat) :
    Memory.get d (Memory.tabulate d n f) a = if a < n then f a else d := by
  unfold Memory.get
  cases h : Memory.find? (Memory.tabulate d n f) a with
  | none =>
    rw [Memory.find?_eq_none_iff] at h
    by_cases ha : a < n
    · by_cases hd : f a = d
      · simp [ha, hd]
      · exact absurd rfl (h (a, f a) ((Memory.mem_tabulate d n f _).2 ⟨ha, rfl, hd⟩))
    · simp [ha]
  | some v =>
    have := (Memory.mem_tabulate d n f _).1 (Memory.mem_of_find? _ _ _ h)
    simp only at this
    simp [this.1, this.2.1]

/-- What replacing every content lists. -/
theorem Memory.mem_mapContents [DecidableEq α] (d : α) (f : α → α) (m : Memory α) (e : Nat × α) :
    e ∈ Memory.mapContents d f m ↔ ∃ v, (e.1, v) ∈ m ∧ f v = e.2 ∧ e.2 ≠ d := by
  obtain ⟨a, u⟩ := e
  simp only [Memory.mapContents, List.mem_filterMap]
  constructor
  · rintro ⟨⟨b, v⟩, hb, h⟩
    split at h
    · simp at h
    · rename_i hne
      cases h
      exact ⟨v, hb, rfl, hne⟩
  · rintro ⟨v, hm, hv, hne⟩
    refine ⟨(a, v), hm, ?_⟩
    subst hv
    simp [hne]

/-- Replacing every content keeps the canonical form. -/
theorem Memory.mapContents_wf [DecidableEq α] (d : α) (f : α → α) (m : Memory α) (hs : m.sorted) :
    Memory.wf d (Memory.mapContents d f m) := by
  refine ⟨?_, fun e he => ?_⟩
  · unfold Memory.sorted Memory.mapContents
    rw [List.pairwise_filterMap]
    refine List.Pairwise.imp ?_ hs
    intro a b hab x hx y hy
    split at hx <;> simp at hx
    split at hy <;> simp at hy
    subst hx; subst hy; exact hab
  · obtain ⟨v, _, _, h⟩ := (Memory.mem_mapContents d f m e).1 he
    exact h

/-- Reading after every content was replaced by a function that keeps the default. -/
theorem Memory.get_mapContents [DecidableEq α] (d : α) (f : α → α) (m : Memory α) (hs : m.sorted) (hd : f d = d)
    (a : Nat) : Memory.get d (Memory.mapContents d f m) a = f (Memory.get d m a) := by
  have hs' := (Memory.mapContents_wf d f m hs).1
  unfold Memory.get
  cases h : Memory.find? m a with
  | none =>
    have hn : Memory.find? (Memory.mapContents d f m) a = none := by
      rw [Memory.find?_eq_none_iff] at *
      intro e he
      obtain ⟨v, hm, _⟩ := (Memory.mem_mapContents d f m e).1 he
      exact h (e.1, v) hm
    simp [hn, hd]
  | some v =>
    have hm := Memory.mem_of_find? _ _ _ h
    by_cases hv : f v = d
    · have hn : Memory.find? (Memory.mapContents d f m) a = none := by
        rw [Memory.find?_eq_none_iff]
        intro e he hea
        obtain ⟨w, hw, hfw, hne⟩ := (Memory.mem_mapContents d f m e).1 he
        have := Memory.find?_of_mem m hs _ _ hw
        rw [hea, h] at this
        cases this
        exact hne (hfw ▸ hv)
      simp [hn, hv]
    · have := Memory.find?_of_mem _ hs' a (f v) ((Memory.mem_mapContents d f m _).2 ⟨v, hm, rfl, hv⟩)
      simp [this]

/-- What the keys from zero list. -/
theorem Memory.mem_putFromZero (m : Memory α) (vs : List α) (e : Nat × α) (h : e ∈ m.putFromZero vs) :
    (e.1 < vs.length ∧ vs[e.1]? = some e.2) ∨ (vs.length ≤ e.1 ∧ e ∈ m) := by
  unfold Memory.putFromZero at h
  rcases List.mem_append.1 h with h | h
  · left
    obtain ⟨i, hi, he⟩ := List.getElem_of_mem h
    simp at hi
    subst he
    simp [hi]
  · right
    have := List.mem_filter.1 h
    exact ⟨by simpa using this.2, this.1⟩

theorem Memory.putFromZero_sorted (m : Memory α) (vs : List α) (hs : m.sorted) : (m.putFromZero vs).sorted := by
  unfold Memory.putFromZero Memory.sorted
  rw [List.pairwise_append]
  refine ⟨?_, hs.filter _, ?_⟩
  · rw [List.pairwise_iff_getElem]
    intro i j hi hj hij
    simp at hi hj ⊢
    omega
  · intro e he e' he'
    obtain ⟨i, hi, h⟩ := List.getElem_of_mem he
    simp at hi
    have := (List.mem_filter.1 he').2
    subst h
    simp at this ⊢
    omega

/-- Reading after the keys from zero were replaced. -/
theorem Memory.find?_putFromZero (m : Memory α) (vs : List α) (hs : m.sorted) (k : Nat) :
    Memory.find? (m.putFromZero vs) k = if k < vs.length then vs[k]? else Memory.find? m k := by
  have hs' := m.putFromZero_sorted vs hs
  by_cases hk : k < vs.length
  · rw [if_pos hk]
    have hmem : (k, vs[k]) ∈ m.putFromZero vs := by
      unfold Memory.putFromZero
      refine List.mem_append_left _ ?_
      have hlen : k < ((List.range' 0 vs.length).zip vs).length := by simpa using hk
      have := List.getElem_mem hlen
      simpa using this
    rw [Memory.find?_of_mem _ hs' k _ hmem]
    simp [hk]
  · rw [if_neg hk]
    cases h : Memory.find? m k with
    | none =>
      rw [Memory.find?_eq_none_iff] at *
      intro e he hek
      rcases m.mem_putFromZero vs e he with h' | h'
      · omega
      · exact h e h'.2 hek
    | some v =>
      refine Memory.find?_of_mem _ hs' k v ?_
      unfold Memory.putFromZero
      refine List.mem_append_right _ (List.mem_filter.2 ⟨Memory.mem_of_find? _ _ _ h, ?_⟩)
      simp; omega

end Sys2Proof.Machine
end

