-- ==== Sys2Proof/Laws/Memories.lean ====
section
/-! SUPPORT. The block's memories after the shared updates: OUTBUF after a generation run, CACHE after a build, a host write
and a reset, RESULT after a search. -/

namespace Sys2Proof.Machine

variable (s : State)

/-! Completion touches no memory. -/

@[simp] theorem State.outBit_finish (e : ErrCode) (i : Nat) : (s.finish e).outBit i = s.outBit i := rfl
@[simp] theorem State.cacheEntry_finish (e : ErrCode) (id : Nat) : (s.finish e).cacheEntry id = s.cacheEntry id := rfl
@[simp] theorem State.cacheBit_finish (e : ErrCode) (id i : Nat) : (s.finish e).cacheBit id i = s.cacheBit id i := rfl
@[simp] theorem State.elen_finish (e : ErrCode) (id : Nat) : (s.finish e).elen id = s.elen id := rfl
@[simp] theorem State.resultWord_finish (e : ErrCode) (k : Nat) : (s.finish e).resultWord k = s.resultWord k := rfl

/-- OUTBUF after a generation run: bits `0..L` from the run, the others kept (41_gold.md R95). -/
theorem State.outBit_generate (c : Word) (i : Nat) (hi : i < Config.maxBits) :
    (s.generate c).outBit i =
      if i < s.snap.argLen.toNat then (goldrun s.snap.window c s.snap.argLen.toNat).bits.getD i false
      else s.outBit i := by
  rw [State.outBit, State.generate_outbuf, Cells.read_store _ _ _ _ _ _ hi, testBit_packBits]
  simp [State.outBit]

/-- CACHE after a build: every entry is the built one (43_seed_cache.md R105). -/
theorem State.cacheEntry_buildCache (id : Nat) :
    s.buildCache.cacheEntry id = if id < Config.numIds then s.builtEntry id else CacheEntry.blank := by
  rw [State.cacheEntry, State.buildCache_cache, Memory.get_tabulate]

/-- The bits of a built entry: `0..N` from its run, the others kept (43_seed_cache.md R105). -/
theorem State.cacheBit_buildCache (id i : Nat) (hid : id < Config.numIds) (hi : i < Config.maxBits) :
    s.buildCache.cacheBit id i =
      if i < s.snap.argLen.toNat then (s.snap.buildRun id).bits.getD i false else s.cacheBit id i := by
  rw [State.cacheBit, State.cacheEntry_buildCache, if_pos hid, State.entryBit, State.builtEntry,
    Cells.read_store _ _ _ _ _ _ hi, testBit_packBits]
  simp [State.cacheBit, State.entryBit]

/-- Every recorded length after a build (43_seed_cache.md R105). -/
theorem State.elen_buildCache (id : Nat) (hid : id < Config.numIds) : s.buildCache.elen id = s.snap.argLen := by
  rw [State.elen, State.cacheEntry_buildCache, if_pos hid]; rfl

/-- CACHE after one entry was replaced. -/
theorem State.cacheEntry_setCacheEntry (id : Nat) (e : CacheEntry) (x : Nat) :
    (s.setCacheEntry id e).cacheEntry x = if x = id then e else s.cacheEntry x := by
  rw [State.cacheEntry, State.setCacheEntry_cache, Memory.get_set]; rfl

/-- The table of entries lists every identifier with its entry. -/
theorem State.mem_entryTable (e : Nat × CacheEntry) :
    e ∈ s.entryTable ↔ e.1 < Config.numIds ∧ e.2 = s.cacheEntry e.1 := by
  obtain ⟨id, c⟩ := e
  simp only [State.entryTable, List.mem_map, List.mem_range'_1]
  constructor
  · rintro ⟨a, ⟨_, ha⟩, h⟩
    cases h
    exact ⟨by simpa using ha, rfl⟩
  · rintro ⟨hid, hc⟩
    exact ⟨id, ⟨Nat.zero_le _, by simpa using hid⟩, by rw [hc]⟩

/-- COMMIT's comparison says that every recorded length is the requested one (43_seed_cache.md R106). -/
theorem State.everyLenIs_iff (N : Word) : s.everyLenIs N = true ↔ ∀ id, id < Config.numIds → s.elen id = N := by
  rw [State.everyLenIs, List.all_eq_true]
  constructor
  · intro h id hid
    have := h (id, s.cacheEntry id) ((s.mem_entryTable _).2 ⟨hid, rfl⟩)
    simpa [State.elen] using this
  · intro h e he
    obtain ⟨hid, hc⟩ := (s.mem_entryTable e).1 he
    have := h e.1 hid
    simpa [State.elen, hc] using this

/-- RESULT after a search: words `0..k` from the matches, the others kept (44_recovery.md R113). -/
theorem State.resultWord_recover (hs : s.result.sorted) (k : Nat) :
    s.recover.resultWord k =
      if h : k < (s.findMatches s.snap.queryBit s.snap.queryLen.toNat s.cacheLen.toNat).length then
        resultOf (s.findMatches s.snap.queryBit s.snap.queryLen.toNat s.cacheLen.toNat)[k]
      else s.resultWord k := by
  unfold State.resultWord State.recover
  simp only [Memory.find?_putFromZero _ _ hs, List.length_map]
  split <;> simp [*]

/-- A least match position is a match, lies in range, and no smaller one matches (44_recovery.md R110). -/
theorem State.matchPos_eq_some_iff (q : Nat → Bool) (L N id : Nat) (e : CacheEntry) (p : Nat) :
    s.matchPos q L N id e = some p ↔
      p < N + 1 - L ∧ s.matchesAt q L id e p = true ∧ ∀ p', p' < p → s.matchesAt q L id e p' = false := by
  unfold State.matchPos
  rw [List.find?_range_eq_some]
  simp only [List.mem_range, Bool.not_eq_true']
  constructor
  · rintro ⟨h1, h2, h3⟩; exact ⟨h2, h1, h3⟩
  · rintro ⟨h2, h1, h3⟩; exact ⟨h1, h2, h3⟩

/-- An entry holds a match exactly when some position matches (44_recovery.md R110). -/
theorem State.matchPos_isSome_iff (q : Nat → Bool) (L N id : Nat) (e : CacheEntry) :
    (s.matchPos q L N id e).isSome = true ↔ ∃ p, p < N + 1 - L ∧ s.matchesAt q L id e p = true := by
  unfold State.matchPos
  rw [List.find?_isSome]
  simp

/-- A match at a position, bit by bit (44_recovery.md R110). -/
theorem State.matchesAt_iff (q : Nat → Bool) (L id : Nat) (e : CacheEntry) (p : Nat) :
    s.matchesAt q L id e p = true ↔ ∀ j, j < L → s.entryBit e id (p + j) = q j := by
  simp [State.matchesAt]

/-- The table of entries is ascending. -/
theorem State.entryTable_sorted : s.entryTable.Pairwise fun a b => a.1 < b.1 := by
  unfold State.entryTable
  rw [List.pairwise_map]
  exact List.pairwise_lt_range'

/-- The table of entries has one row per identifier. -/
theorem State.entryTable_length : s.entryTable.length = Config.numIds := by
  rw [State.entryTable, List.length_map, List.length_range']

/-- The matches of a search: every identifier whose entry matches, with its least position (44_recovery.md R113). -/
theorem State.mem_findMatches (q : Nat → Bool) (L N id p : Nat) :
    (id, p) ∈ s.findMatches q L N ↔ id < Config.numIds ∧ s.matchPos q L N id (s.cacheEntry id) = some p := by
  unfold State.findMatches
  rw [List.mem_filterMap]
  constructor
  · rintro ⟨⟨a, e⟩, h, h2⟩
    obtain ⟨h0, h1⟩ := (s.mem_entryTable _).1 h
    simp only [Option.map_eq_some_iff] at h2
    obtain ⟨p', h3, h4⟩ := h2
    cases h4
    simp only at h1 h3 h0
    subst h1
    exact ⟨h0, h3⟩
  · rintro ⟨h1, h2⟩
    exact ⟨(id, s.cacheEntry id), (s.mem_entryTable _).2 ⟨h1, rfl⟩, by simp [h2]⟩

/-- The matches of a search are ascending. -/
theorem State.findMatches_sorted (q : Nat → Bool) (L N : Nat) :
    (s.findMatches q L N).Pairwise fun a b => a.1 < b.1 := by
  refine List.Pairwise.filterMap _ ?_ s.entryTable_sorted
  rintro ⟨a, e⟩ ⟨b, e'⟩ h x hx y hy
  simp only [Option.map_eq_some_iff] at hx hy
  obtain ⟨_, _, rfl⟩ := hx
  obtain ⟨_, _, rfl⟩ := hy
  exact h

/-- A search finds each identifier at most once. -/
theorem State.findMatches_length_le (q : Nat → Bool) (L N : Nat) : (s.findMatches q L N).length ≤ Config.numIds := by
  rw [← s.entryTable_length]
  exact List.length_filterMap_le _ _

/-- The fields of a RESULT word (44_recovery.md R113). -/
theorem resultOf_toNat (id p : Nat) (hid : id < 65536) (hp : p < 65536) : (resultOf (id, p)).toNat = 65536 * p + id := by
  have h : p <<< 16 ||| id = p * 65536 + id := by
    rw [← Nat.shiftLeft_add_eq_or_of_lt (by omega : id < 2 ^ 16), Nat.shiftLeft_eq]
  rw [resultOf, h, BitVec.toNat_ofNat]
  omega

/-- Every entry of a canonical cache has canonical cells. -/
theorem State.cacheEntry_cells_wf (h : cacheWf s.cache) (id : Nat) : (s.cacheEntry id).cells.wf := by
  unfold State.cacheEntry Memory.get
  cases hf : Memory.find? s.cache id with
  | none => exact Cells.blank_wf _
  | some e => exact (h.2 _ (Memory.mem_of_find? _ _ _ hf)).2

/-- Replacing every entry by one with canonical cells keeps the canonical form of CACHE. -/
theorem cacheWf_mapContents (f : CacheEntry → CacheEntry) (m : Memory CacheEntry) (h : cacheWf m)
    (hf : ∀ e, e.cells.wf → (f e).cells.wf) : cacheWf (Memory.mapContents CacheEntry.blank f m) := by
  refine ⟨Memory.mapContents_wf _ _ _ h.1.1, fun e he => ?_⟩
  obtain ⟨v, h1, h2, _⟩ := (Memory.mem_mapContents _ _ _ _).1 he
  have hv := h.2 _ h1
  exact ⟨hv.1, h2 ▸ hf v hv.2⟩

/-- Replacing one entry keeps the canonical form of CACHE. -/
theorem State.setCacheEntry_wf (h : cacheWf s.cache) (id : Nat) (e : CacheEntry) (hid : id < Config.numIds)
    (he : e.cells.wf) : cacheWf (s.setCacheEntry id e).cache := by
  refine ⟨Memory.set_wf _ _ _ _ h.1, fun x hx => ?_⟩
  rcases Memory.mem_set _ _ _ _ _ hx with rfl | hm
  · exact ⟨hid, he⟩
  · exact h.2 x hm

/-- A rebuilt cache is canonical. -/
theorem State.buildCache_wf (h : cacheWf s.cache) : cacheWf s.buildCache.cache := by
  refine ⟨Memory.tabulate_wf _ _ _, fun e he => ?_⟩
  obtain ⟨h1, h2, _⟩ := (Memory.mem_tabulate _ _ _ _).1 he
  refine ⟨h1, ?_⟩
  rw [h2]
  exact Cells.store_wf _ _ _ _ (s.cacheEntry_cells_wf h _)

end Sys2Proof.Machine
end

