-- ==== Sys2Proof/Laws/Exec.lean ====
section
/-! SUPPORT. What each command is, said once: the checks it makes and its effect, and which fields no effect touches. -/

namespace Sys2Proof.Machine

/-- The checks of a command, in order (60_exceptions.md R123). -/
def checksOf (i : Instr) (s : State) : List (Bool × ErrCode) :=
  match i with
  | .nop => []
  | .xload => []
  | .adv1 _ => advanceChecks s.sizes s.snap
  | .adv2 _ => advanceChecks s.sizes s.snap
  | .advj _ => advanceChecks s.sizes s.snap
  | .gen => genChecks s.sizes s.snap
  | .cinit => cinitChecks s.snap
  | .genid => genidChecks s.sizes s.snap
  | .build => buildChecks s.sizes s.snap
  | .commit => commitChecks s.sizes s.snap
  | .inval => []
  | .find => findChecks s
  | .report => reportChecks s

/-- The effect of a command whose checks pass; COMMIT's is in `execCommit_cases`. -/
def effectOf (i : Instr) (s : State) : State :=
  match i with
  | .nop => s
  | .xload => { s with x1 := loadX1, x2 := loadX2 s.snap.argCinit }
  | .adv1 n => { s with x1 := s.x1.advN tapsX1 s.snap.window n }
  | .adv2 n => { s with x2 := s.x2.advN tapsX2 s.snap.window n }
  | .advj n => { s with x1 := s.x1.advN tapsX1 s.snap.window n, x2 := s.x2.advN tapsX2 s.snap.window n }
  | .gen => s.generate s.snap.argCinit
  | .cinit => { s with resCinit := s.snap.cinitOf s.snap.argId }
  | .genid => { s with resCinit := s.snap.cinitOf s.snap.argId }.generate (s.snap.cinitOf s.snap.argId)
  | .build => s.buildCache
  | .commit => s
  | .inval => { s with cacheState := .empty }
  | .find => s.recover
  | .report => s.identifiability

/-- Every command but COMMIT makes its checks and has its effect. -/
theorem exec_eq (i : Instr) (s : State) (h : i ≠ .commit) : exec i s = runChecked (checksOf i s) (effectOf i) s := by
  cases i <;> first | rfl | exact absurd rfl h

/-- Everything a command can do: fail one of its checks with no effect but the completion fields, have its effect, or, for
COMMIT, record the length with VALID or with STALE and CACHE_MISMATCH (60_exceptions.md R121, R122). -/
theorem exec_cases (i : Instr) (s t : State) (h : exec i s = .next t) :
    (firstError (checksOf i s) ≠ .noError ∧ t = s.finish (firstError (checksOf i s))) ∨
    (i ≠ .commit ∧ firstError (checksOf i s) = .noError ∧ t = (effectOf i s).finish .noError) ∨
    (i = .commit ∧ firstError (checksOf i s) = .noError ∧
      ((s.everyLenIs s.snap.argLen = true ∧
          t = { s with cacheLen := s.snap.argLen, cacheState := .valid }.finish .noError) ∨
        (s.everyLenIs s.snap.argLen = false ∧
          t = { s with cacheLen := s.snap.argLen, cacheState := .stale }.finish .cacheMismatch))) := by
  by_cases hi : i = .commit
  · subst hi
    rcases execCommit_cases s t h with ⟨h1, h2⟩ | ⟨h1, h2, h3⟩ | ⟨h1, h2, h3⟩
    · exact .inl ⟨h1, h2⟩
    · exact .inr (.inr ⟨rfl, h1, .inl ⟨h2, h3⟩⟩)
    · exact .inr (.inr ⟨rfl, h1, .inr ⟨h2, h3⟩⟩)
  · rw [exec_eq i s hi] at h
    rcases runChecked_cases _ _ _ _ h with ⟨h1, h2⟩ | ⟨h1, h2⟩
    · exact .inr (.inl ⟨hi, h1, h2⟩)
    · exact .inl ⟨h1, h2⟩

/-- A command other than COMMIT whose checks pass answers its effect, completed. -/
theorem exec_ok (i : Instr) (s : State) (hi : i ≠ .commit) (h : firstError (checksOf i s) = .noError) :
    exec i s = .next ((effectOf i s).finish .noError) := by
  rw [exec_eq i s hi, runChecked_ok _ _ _ h]

/-- A command whose checks fail answers the completed state with the first error. -/
theorem exec_error (i : Instr) (s : State) (h : firstError (checksOf i s) ≠ .noError) :
    exec i s = .next (s.finish (firstError (checksOf i s))) := by
  by_cases hi : i = .commit
  · subst hi
    show execCommit s = _
    unfold execCommit
    split
    · exact absurd ‹_› h
    · rfl
  · rw [exec_eq i s hi, runChecked_error _ _ _ h]

/-! The effects by name, and the fields that no effect touches. -/

theorem effectOf_gen (s : State) : effectOf .gen s = s.generate s.snap.argCinit := by rw [effectOf]
theorem effectOf_cinit (s : State) : effectOf .cinit s = { s with resCinit := s.snap.cinitOf s.snap.argId } := by
  rw [effectOf]
theorem effectOf_genid (s : State) :
    effectOf .genid s =
      { s with resCinit := s.snap.cinitOf s.snap.argId }.generate (s.snap.cinitOf s.snap.argId) := by rw [effectOf]
theorem effectOf_build (s : State) : effectOf .build s = s.buildCache := by rw [effectOf]
theorem effectOf_find (s : State) : effectOf .find s = s.recover := by rw [effectOf]
theorem effectOf_report (s : State) : effectOf .report s = s.identifiability := by rw [effectOf]

/-- A field that no effect touches, shown once for each effect. -/
theorem effectOf_keeps {α : Type} (f : State → α) (s : State) (xload : f (effectOf .xload s) = f s)
    (adv1 : ∀ n, f (effectOf (.adv1 n) s) = f s) (adv2 : ∀ n, f (effectOf (.adv2 n) s) = f s)
    (advj : ∀ n, f (effectOf (.advj n) s) = f s) (gen : f (s.generate s.snap.argCinit) = f s)
    (cinit : f { s with resCinit := s.snap.cinitOf s.snap.argId } = f s)
    (genid : f ({ s with resCinit := s.snap.cinitOf s.snap.argId }.generate (s.snap.cinitOf s.snap.argId)) = f s)
    (build : f s.buildCache = f s) (inval : f (effectOf .inval s) = f s) (find : f s.recover = f s)
    (report : f s.identifiability = f s) (i : Instr) : f (effectOf i s) = f s := by
  cases i with
  | nop => rw [effectOf]
  | xload => exact xload
  | adv1 n => exact adv1 n
  | adv2 n => exact adv2 n
  | advj n => exact advj n
  | gen => rw [effectOf_gen, gen]
  | cinit => rw [effectOf_cinit, cinit]
  | genid => rw [effectOf_genid, genid]
  | build => rw [effectOf_build, build]
  | commit => rw [effectOf]
  | inval => exact inval
  | find => rw [effectOf_find, find]
  | report => rw [effectOf_report, report]

@[simp] theorem effectOf_sizes (i : Instr) (s : State) : (effectOf i s).sizes = s.sizes :=
  effectOf_keeps State.sizes s rfl (fun _ => rfl) (fun _ => rfl) (fun _ => rfl) (by simp) (by simp)
    ((State.generate_sizes _ _).trans (by simp)) (by simp) rfl (by simp) (by simp) i
@[simp] theorem effectOf_ie (i : Instr) (s : State) : (effectOf i s).ie = s.ie :=
  effectOf_keeps State.ie s rfl (fun _ => rfl) (fun _ => rfl) (fun _ => rfl) (by simp) (by simp)
    ((State.generate_ie _ _).trans (by simp)) (by simp) rfl (by simp) (by simp) i
@[simp] theorem effectOf_winEn (i : Instr) (s : State) : (effectOf i s).winEn = s.winEn :=
  effectOf_keeps State.winEn s rfl (fun _ => rfl) (fun _ => rfl) (fun _ => rfl) (by simp) (by simp)
    ((State.generate_winEn _ _).trans (by simp)) (by simp) rfl (by simp) (by simp) i
@[simp] theorem effectOf_busy (i : Instr) (s : State) : (effectOf i s).busy = s.busy :=
  effectOf_keeps State.busy s rfl (fun _ => rfl) (fun _ => rfl) (fun _ => rfl) (by simp) (by simp)
    ((State.generate_busy _ _).trans (by simp)) (by simp) rfl (by simp) (by simp) i
@[simp] theorem effectOf_done (i : Instr) (s : State) : (effectOf i s).done = s.done :=
  effectOf_keeps State.done s rfl (fun _ => rfl) (fun _ => rfl) (fun _ => rfl) (by simp) (by simp)
    ((State.generate_done _ _).trans (by simp)) (by simp) rfl (by simp) (by simp) i
@[simp] theorem effectOf_cmdLost (i : Instr) (s : State) : (effectOf i s).cmdLost = s.cmdLost :=
  effectOf_keeps State.cmdLost s rfl (fun _ => rfl) (fun _ => rfl) (fun _ => rfl) (by simp) (by simp)
    ((State.generate_cmdLost _ _).trans (by simp)) (by simp) rfl (by simp) (by simp) i
@[simp] theorem effectOf_accErr (i : Instr) (s : State) : (effectOf i s).accErr = s.accErr :=
  effectOf_keeps State.accErr s rfl (fun _ => rfl) (fun _ => rfl) (fun _ => rfl) (by simp) (by simp)
    ((State.generate_accErr _ _).trans (by simp)) (by simp) rfl (by simp) (by simp) i
@[simp] theorem effectOf_err (i : Instr) (s : State) : (effectOf i s).err = s.err :=
  effectOf_keeps State.err s rfl (fun _ => rfl) (fun _ => rfl) (fun _ => rfl) (by simp) (by simp)
    ((State.generate_err _ _).trans (by simp)) (by simp) rfl (by simp) (by simp) i
@[simp] theorem effectOf_lastCmd (i : Instr) (s : State) : (effectOf i s).lastCmd = s.lastCmd :=
  effectOf_keeps State.lastCmd s rfl (fun _ => rfl) (fun _ => rfl) (fun _ => rfl) (by simp) (by simp)
    ((State.generate_lastCmd _ _).trans (by simp)) (by simp) rfl (by simp) (by simp) i
@[simp] theorem effectOf_argCinit (i : Instr) (s : State) : (effectOf i s).argCinit = s.argCinit :=
  effectOf_keeps State.argCinit s rfl (fun _ => rfl) (fun _ => rfl) (fun _ => rfl) (by simp) (by simp)
    ((State.generate_argCinit _ _).trans (by simp)) (by simp) rfl (by simp) (by simp) i
@[simp] theorem effectOf_argLen (i : Instr) (s : State) : (effectOf i s).argLen = s.argLen :=
  effectOf_keeps State.argLen s rfl (fun _ => rfl) (fun _ => rfl) (fun _ => rfl) (by simp) (by simp)
    ((State.generate_argLen _ _).trans (by simp)) (by simp) rfl (by simp) (by simp) i
@[simp] theorem effectOf_argId (i : Instr) (s : State) : (effectOf i s).argId = s.argId :=
  effectOf_keeps State.argId s rfl (fun _ => rfl) (fun _ => rfl) (fun _ => rfl) (by simp) (by simp)
    ((State.generate_argId _ _).trans (by simp)) (by simp) rfl (by simp) (by simp) i
@[simp] theorem effectOf_argSps (i : Instr) (s : State) : (effectOf i s).argSps = s.argSps :=
  effectOf_keeps State.argSps s rfl (fun _ => rfl) (fun _ => rfl) (fun _ => rfl) (by simp) (by simp)
    ((State.generate_argSps _ _).trans (by simp)) (by simp) rfl (by simp) (by simp) i
@[simp] theorem effectOf_argSlot (i : Instr) (s : State) : (effectOf i s).argSlot = s.argSlot :=
  effectOf_keeps State.argSlot s rfl (fun _ => rfl) (fun _ => rfl) (fun _ => rfl) (by simp) (by simp)
    ((State.generate_argSlot _ _).trans (by simp)) (by simp) rfl (by simp) (by simp) i
@[simp] theorem effectOf_argSym (i : Instr) (s : State) : (effectOf i s).argSym = s.argSym :=
  effectOf_keeps State.argSym s rfl (fun _ => rfl) (fun _ => rfl) (fun _ => rfl) (by simp) (by simp)
    ((State.generate_argSym _ _).trans (by simp)) (by simp) rfl (by simp) (by simp) i
@[simp] theorem effectOf_winCap (i : Instr) (s : State) : (effectOf i s).winCap = s.winCap :=
  effectOf_keeps State.winCap s rfl (fun _ => rfl) (fun _ => rfl) (fun _ => rfl) (by simp) (by simp)
    ((State.generate_winCap _ _).trans (by simp)) (by simp) rfl (by simp) (by simp) i
@[simp] theorem effectOf_queryLen (i : Instr) (s : State) : (effectOf i s).queryLen = s.queryLen :=
  effectOf_keeps State.queryLen s rfl (fun _ => rfl) (fun _ => rfl) (fun _ => rfl) (by simp) (by simp)
    ((State.generate_queryLen _ _).trans (by simp)) (by simp) rfl (by simp) (by simp) i
@[simp] theorem effectOf_queryLo (i : Instr) (s : State) : (effectOf i s).queryLo = s.queryLo :=
  effectOf_keeps State.queryLo s rfl (fun _ => rfl) (fun _ => rfl) (fun _ => rfl) (by simp) (by simp)
    ((State.generate_queryLo _ _).trans (by simp)) (by simp) rfl (by simp) (by simp) i
@[simp] theorem effectOf_queryHi (i : Instr) (s : State) : (effectOf i s).queryHi = s.queryHi :=
  effectOf_keeps State.queryHi s rfl (fun _ => rfl) (fun _ => rfl) (fun _ => rfl) (by simp) (by simp)
    ((State.generate_queryHi _ _).trans (by simp)) (by simp) rfl (by simp) (by simp) i
@[simp] theorem effectOf_cacheSel (i : Instr) (s : State) : (effectOf i s).cacheSel = s.cacheSel :=
  effectOf_keeps State.cacheSel s rfl (fun _ => rfl) (fun _ => rfl) (fun _ => rfl) (by simp) (by simp)
    ((State.generate_cacheSel _ _).trans (by simp)) (by simp) rfl (by simp) (by simp) i
@[simp] theorem effectOf_resultIdx (i : Instr) (s : State) : (effectOf i s).resultIdx = s.resultIdx :=
  effectOf_keeps State.resultIdx s rfl (fun _ => rfl) (fun _ => rfl) (fun _ => rfl) (by simp) (by simp)
    ((State.generate_resultIdx _ _).trans (by simp)) (by simp) rfl (by simp) (by simp) i
@[simp] theorem effectOf_winSel (i : Instr) (s : State) : (effectOf i s).winSel = s.winSel :=
  effectOf_keeps State.winSel s rfl (fun _ => rfl) (fun _ => rfl) (fun _ => rfl) (by simp) (by simp)
    ((State.generate_winSel _ _).trans (by simp)) (by simp) rfl (by simp) (by simp) i
@[simp] theorem effectOf_winIdx (i : Instr) (s : State) : (effectOf i s).winIdx = s.winIdx :=
  effectOf_keeps State.winIdx s rfl (fun _ => rfl) (fun _ => rfl) (fun _ => rfl) (by simp) (by simp)
    ((State.generate_winIdx _ _).trans (by simp)) (by simp) rfl (by simp) (by simp) i
@[simp] theorem effectOf_outbufMark (i : Instr) (s : State) : (effectOf i s).outbufMark = s.outbufMark :=
  effectOf_keeps State.outbufMark s rfl (fun _ => rfl) (fun _ => rfl) (fun _ => rfl) (by simp) (by simp)
    ((State.generate_outbufMark _ _).trans (by simp)) (by simp) rfl (by simp) (by simp) i
@[simp] theorem effectOf_cacheMark (i : Instr) (s : State) : (effectOf i s).cacheMark = s.cacheMark :=
  effectOf_keeps State.cacheMark s rfl (fun _ => rfl) (fun _ => rfl) (fun _ => rfl) (by simp) (by simp)
    ((State.generate_cacheMark _ _).trans (by simp)) (by simp) rfl (by simp) (by simp) i
@[simp] theorem effectOf_resultMark (i : Instr) (s : State) : (effectOf i s).resultMark = s.resultMark :=
  effectOf_keeps State.resultMark s rfl (fun _ => rfl) (fun _ => rfl) (fun _ => rfl) (by simp) (by simp)
    ((State.generate_resultMark _ _).trans (by simp)) (by simp) rfl (by simp) (by simp) i
@[simp] theorem effectOf_snap (i : Instr) (s : State) : (effectOf i s).snap = s.snap :=
  effectOf_keeps State.snap s rfl (fun _ => rfl) (fun _ => rfl) (fun _ => rfl) (by simp) (by simp)
    ((State.generate_snap _ _).trans (by simp)) (by simp) rfl (by simp) (by simp) i
@[simp] theorem effectOf_freeCount (i : Instr) (s : State) : (effectOf i s).freeCount = s.freeCount :=
  effectOf_keeps State.freeCount s rfl (fun _ => rfl) (fun _ => rfl) (fun _ => rfl) (by simp) (by simp)
    ((State.generate_freeCount _ _).trans (by simp)) (by simp) rfl (by simp) (by simp) i
@[simp] theorem effectOf_pending (i : Instr) (s : State) : (effectOf i s).pending = s.pending :=
  effectOf_keeps State.pending s rfl (fun _ => rfl) (fun _ => rfl) (fun _ => rfl) (by simp) (by simp)
    ((State.generate_pending _ _).trans (by simp)) (by simp) rfl (by simp) (by simp) i
@[simp] theorem effectOf_readData (i : Instr) (s : State) : (effectOf i s).readData = s.readData :=
  effectOf_keeps State.readData s rfl (fun _ => rfl) (fun _ => rfl) (fun _ => rfl) (by simp) (by simp)
    ((State.generate_readData _ _).trans (by simp)) (by simp) rfl (by simp) (by simp) i

/-! When the checks of the commands find nothing. -/

/-- The window check as a proposition (40_lfsr.md R84). -/
theorem Snapshot.windowIllegal_iff (S : Snapshot) (z : Config.Sizes) :
    S.windowIllegal z = true ↔ S.winEn = true ∧ ¬(1 ≤ S.winCap.toNat ∧ S.winCap.toNat ≤ z.winCapMax) := by
  unfold Snapshot.windowIllegal
  rw [Bool.and_eq_true, Bool.not_eq_true', ← Bool.not_eq_true, Bool.and_eq_true, decide_eq_true_eq, decide_eq_true_eq]

end Sys2Proof.Machine
end

