-- ==== Sys2Proof/Laws/HostPort.lean ====
section
/-! SUPPORT. The host port: the register map read both ways, and everything an access can do. -/

namespace Sys2Proof.Machine

/-- The offset of a word of CACHE_WIN and of OUT_WIN, as a number (10_state.md R29). -/
theorem Reg.window_offset (w : Fin 2048) :
    (Reg.cacheWin w).offset.toNat = 0x2000 + 4 * w.val ∧ (Reg.outWin w).offset.toNat = 0x4000 + 4 * w.val := by
  have h := w.isLt
  constructor <;> simp only [Reg.offset, BitVec.toNat_ofNat] <;> omega

/-- A word index found back from its place in a window. -/
theorem Reg.window_index (w : Fin 2048) (base : Nat) : Fin.ofNat 2048 ((base + 4 * w.val - base) / 4) = w := by
  have h := w.isLt
  apply Fin.ext
  simp only [Fin.ofNat]
  omega

/-- The register at a register's offset is that register (10_state.md R29). -/
@[simp] theorem Reg.ofOffset_offset (r : Reg) : Reg.ofOffset r.offset = some r := by
  cases r with
  | report k => revert k; decide
  | cacheWin w =>
    have h := w.isLt
    simp only [Reg.ofOffset, (Reg.window_offset w).1]
    rw [if_neg (by omega), if_neg (by omega), if_pos (by omega), Reg.window_index]
  | outWin w =>
    have h := w.isLt
    simp only [Reg.ofOffset, (Reg.window_offset w).2]
    rw [if_neg (by omega), if_neg (by omega), if_neg (by omega), if_pos (by omega), Reg.window_index]
  | _ => decide

/-- Every register stands at a 4-byte-aligned offset (10_state.md R29). -/
theorem Reg.offset_aligned (r : Reg) : r.offset.toNat % 4 = 0 := by
  cases r with
  | report k => revert k; decide
  | cacheWin w => rw [(Reg.window_offset w).1]; omega
  | outWin w => rw [(Reg.window_offset w).2]; omega
  | _ => decide

/-- An offset reaches a register exactly if the register stands there and is listed at the sizes (10_state.md R29). -/
theorem Reg.listedAt_eq_some_iff (z : Config.Sizes) (a : BitVec 16) (r : Reg) :
    Reg.listedAt z a = some r ↔ Reg.ofOffset a = some r ∧ r.listed z = true := by
  rw [Reg.listedAt, Option.filter_eq_some_iff]

/-- The offset of a listed register reaches it (10_state.md R29). -/
theorem Reg.listedAt_offset (z : Config.Sizes) (r : Reg) :
    Reg.listedAt z r.offset = if r.listed z then some r else none := by
  rw [Reg.listedAt, Reg.ofOffset_offset]
  cases h : r.listed z <;> simp [Option.filter, h]

/-- An aligned 32-bit access to a listed register reaches it unless it is refused as busy (20_memory.md R53 to R58). -/
theorem State.reaches_offset (s : State) (r : Reg) (hr : r.listed s.sizes = true) :
    s.reaches r.offset 4 = if r.isBR && s.busy then none else some r := by
  simp [State.reaches, Reg.offset_aligned, Reg.listedAt_offset, hr]

/-- Everything a host read can do: an error and the value 0, or the register's value (20_memory.md R53). -/
theorem State.hostRead_cases (s : State) (a : BitVec 16) (size : Nat) :
    (s.reaches a size = none ∧ s.hostRead a size = { s.accessError with readData := some 0#32 }) ∨
      ∃ r, s.reaches a size = some r ∧ s.hostRead a size = { s with readData := some (s.readValue r) } := by
  unfold State.hostRead
  cases s.reaches a size <;> simp

/-- Everything a host write can do: an error, or the register's effect (20_memory.md R54). -/
theorem State.hostWrite_cases (s : State) (a : BitVec 16) (size : Nat) (v : Word) :
    s.hostWrite a size v = s.accessError ∨
      ∃ r, s.reaches a size = some r ∧ r.isRO = false ∧ s.hostWrite a size v = s.writeEffect r v := by
  unfold State.hostWrite
  cases h : s.reaches a size with
  | none => exact .inl rfl
  | some r => cases hr : r.isRO <;> simp [hr]

/-- What an access that reaches a register says of it (20_memory.md R53 to R58). -/
theorem State.reaches_some (s : State) (a : BitVec 16) (size : Nat) (r : Reg) (h : s.reaches a size = some r) :
    Reg.listedAt s.sizes a = some r ∧ size = 4 ∧ ¬(r.isBR = true ∧ s.busy = true) := by
  unfold State.reaches at h
  split at h
  · cases h
  · rename_i hsize
    split at h
    · cases h
    · rename_i r' hr
      split at h
      · cases h
      · rename_i hb
        cases h
        exact ⟨hr, by omega, by simpa using hb⟩

/-- A 32-bit write at a listed register's own offset (20_memory.md R54). -/
theorem State.hostWrite_offset (s : State) (r : Reg) (v : Word) (hl : r.listed s.sizes = true) :
    s.hostWrite r.offset 4 v = if (r.isBR && s.busy) = true ∨ r.isRO = true then s.accessError else s.writeEffect r v := by
  unfold State.hostWrite
  rw [State.reaches_offset s r hl]
  cases hb : r.isBR && s.busy <;> cases ho : r.isRO <;> simp [ho]

/-- A 32-bit read at a listed register's own offset (20_memory.md R53). -/
theorem State.hostRead_offset (s : State) (r : Reg) (hl : r.listed s.sizes = true) :
    s.hostRead r.offset 4 =
      if (r.isBR && s.busy) = true then { s.accessError with readData := some 0#32 }
      else { s with readData := some (s.readValue r) } := by
  unfold State.hostRead
  rw [State.reaches_offset s r hl]
  cases hb : r.isBR && s.busy <;> simp

/-- An access to a window word that the sizes do not list reaches nothing (20_memory.md R56). -/
theorem State.reaches_unlisted (s : State) (r : Reg) (hr : r.listed s.sizes = false) : s.reaches r.offset 4 = none := by
  simp [State.reaches, Reg.offset_aligned, Reg.listedAt_offset, hr]

/-- A write to a window word that the sizes do not list sets ACC_ERR (20_memory.md R56). -/
theorem State.hostWrite_unlisted (s : State) (r : Reg) (v : Word) (hr : r.listed s.sizes = false) :
    s.hostWrite r.offset 4 v = s.accessError := by
  unfold State.hostWrite
  rw [s.reaches_unlisted r hr]

/-- A read of a window word that the sizes do not list sets ACC_ERR and returns 0 (20_memory.md R56). -/
theorem State.hostRead_unlisted (s : State) (r : Reg) (hr : r.listed s.sizes = false) :
    s.hostRead r.offset 4 = { s.accessError with readData := some 0#32 } := by
  unfold State.hostRead
  rw [s.reaches_unlisted r hr]

end Sys2Proof.Machine
end

