-- ==== Sys2Proof/Laws/PerInstr.lean ====
section
/-! SUPPORT. Facts about every command as syntax, one lemma per constructor. -/

namespace Sys2Proof.Laws

/-- The three fields of a command with count `n` and opcode `op` (30_encoding.md R70). -/
theorem fields_of_word (n op : Nat) (hn : n < 65536) (ho : op < 256) :
    opField (BitVec.ofNat 32 (n <<< 16 ||| op)) = BitVec.ofNat 8 op ∧
      rsvField (BitVec.ofNat 32 (n <<< 16 ||| op)) = 0#8 ∧
      (cntField (BitVec.ofNat 32 (n <<< 16 ||| op))).toNat = n := by
  have hw : n <<< 16 ||| op = n * 65536 + op := by
    rw [← Nat.shiftLeft_add_eq_or_of_lt (by omega : op < 2 ^ 16), Nat.shiftLeft_eq]
  rw [hw]
  refine ⟨?_, ?_, ?_⟩
  · apply BitVec.eq_of_toNat_eq
    simp [opField]
    omega
  · apply BitVec.eq_of_toNat_eq
    simp [rsvField, Nat.shiftRight_eq_div_pow]
    omega
  · simp [cntField, Nat.shiftRight_eq_div_pow]
    omega

/-- What the fields of an encoded command are: its opcode, zero, its count (30_encoding.md R70, R72). -/
def EncodedFields.Statement (i : Instr) : Prop :=
  i.wf = true →
    opField (encode i) = BitVec.ofNat 8 i.opcode ∧ rsvField (encode i) = 0#8 ∧ (cntField (encode i)).toNat = i.count

theorem EncodedFields.nop : EncodedFields.Statement .nop := fun _ => fields_of_word 0 0x00 (by decide) (by decide)
theorem EncodedFields.xload : EncodedFields.Statement .xload := fun _ => fields_of_word 0 0x01 (by decide) (by decide)
theorem EncodedFields.adv1 (n : Nat) : EncodedFields.Statement (.adv1 n) :=
  fun h => fields_of_word n 0x02 (of_decide_eq_true h) (by decide)
theorem EncodedFields.adv2 (n : Nat) : EncodedFields.Statement (.adv2 n) :=
  fun h => fields_of_word n 0x03 (of_decide_eq_true h) (by decide)
theorem EncodedFields.advj (n : Nat) : EncodedFields.Statement (.advj n) :=
  fun h => fields_of_word n 0x04 (of_decide_eq_true h) (by decide)
theorem EncodedFields.gen : EncodedFields.Statement .gen := fun _ => fields_of_word 0 0x05 (by decide) (by decide)
theorem EncodedFields.cinit : EncodedFields.Statement .cinit := fun _ => fields_of_word 0 0x06 (by decide) (by decide)
theorem EncodedFields.genid : EncodedFields.Statement .genid := fun _ => fields_of_word 0 0x07 (by decide) (by decide)
theorem EncodedFields.build : EncodedFields.Statement .build := fun _ => fields_of_word 0 0x08 (by decide) (by decide)
theorem EncodedFields.commit : EncodedFields.Statement .commit := fun _ => fields_of_word 0 0x09 (by decide) (by decide)
theorem EncodedFields.inval : EncodedFields.Statement .inval := fun _ => fields_of_word 0 0x0A (by decide) (by decide)
theorem EncodedFields.find : EncodedFields.Statement .find := fun _ => fields_of_word 0 0x0B (by decide) (by decide)
theorem EncodedFields.report : EncodedFields.Statement .report := fun _ => fields_of_word 0 0x0C (by decide) (by decide)

end Sys2Proof.Laws
end

