-- ==== Sys2Proof/Laws/Reset.lean ====
section
/-! SUPPORT. Reset: everything an aborted command can lose, and the memories after a soft reset. -/

namespace Sys2Proof.Machine

variable (s : State)

/-- Everything that abandoning a command can do (70_reset_and_hazards.md R140): nothing, or one memory loses the cells the
command could have written. -/
theorem State.abandon_cases :
    s.abandon = s ∨
      s.abandon = { s with
        outbuf := s.outbuf.forget s.snap.argLen.toNat
        outbufMark := s.outbufMark.renew s.snap.argLen.toNat s.freeCount } ∨
      s.abandon = { s with
        cache := Memory.mapContents CacheEntry.blank
          (fun e => { e with cells := e.cells.forget s.snap.argLen.toNat }) s.cache
        cacheMark := s.cacheMark.renew s.snap.argLen.toNat s.freeCount } ∨
      s.abandon = { s with result := [], resultMark := s.freeCount } := by
  unfold State.abandon
  cases decode s.snap.cmd with
  | illegal w => exact .inl rfl
  | ok i =>
    cases i with
    | gen => by_cases h : firstError (genChecks s.sizes s.snap) = .noError <;> simp [h]
    | genid => by_cases h : firstError (genidChecks s.sizes s.snap) = .noError <;> simp [h]
    | build => by_cases h : firstError (buildChecks s.sizes s.snap) = .noError <;> simp [h]
    | find => by_cases h : firstError (findChecks s) = .noError <;> simp [h]
    | _ => exact .inl rfl

/-- A forgotten prefix of an entry of which nothing is known leaves it so. -/
theorem CacheEntry.forget_blank (len : Nat) :
    { CacheEntry.blank with cells := CacheEntry.blank.cells.forget len } = CacheEntry.blank := by
  simp [CacheEntry.blank, Cells.blank, Cells.forget]

/-- The cache after a soft reset: the bits as the abandoned command leaves them, every recorded length 0
(70_reset_and_hazards.md R139). -/
theorem State.cacheEntry_softReset (hs : (if s.busy then s.abandon else s).cache.sorted) (id : Nat) :
    s.softReset.cacheEntry id =
      { (if s.busy then s.abandon else s).cacheEntry id with elen := 0#32 } :=
  Memory.get_mapContents CacheEntry.blank (fun e => { e with elen := 0#32 }) _ hs rfl id

/-- The abandoned state's cache is still in key order. -/
theorem State.abandon_cache_sorted (hs : s.cache.sorted) : s.abandon.cache.sorted := by
  rcases s.abandon_cases with h | h | h | h <;> rw [h]
  · exact hs
  · exact hs
  · exact (Memory.mapContents_wf CacheEntry.blank
      (fun e => { e with cells := e.cells.forget s.snap.argLen.toNat }) s.cache hs).1
  · exact hs

end Sys2Proof.Machine
end

