-- ==== Sys2Proof/Laws/Step.lean ====
section
/-! SUPPORT. The step: which event it performs, and that an event takes none of the events to come. -/

namespace Sys2Proof.Machine

/-- With no event to come the engine has its turn. -/
theorem step_nil (s : State) (h : s.pending = []) : step s = engineTurn s := by simp only [step, h]

/-- The next event is performed with the rest to come. -/
theorem step_cons (s : State) (e : Event) (rest : List Event) (h : s.pending = e :: rest) :
    step s = runEvent e { s with pending := rest } := by simp only [step, h]

/-- No step taken. -/
theorem run_zero (s : State) : Host.Core.run Sys2Proof.core 0 s = .next s := rfl

/-- One step more of any machine. -/
theorem coreRun_succ (M : Host.Core) (n : Nat) (s t : M.State) (h : M.step s = .next t) :
    M.run (n + 1) s = M.run n t := by
  rw [Host.Core.run, h]

/-- One step more. -/
theorem run_succ (n : Nat) (s t : State) (h : step s = .next t) :
    Host.Core.run Sys2Proof.core (n + 1) s = Host.Core.run Sys2Proof.core n t :=
  coreRun_succ Sys2Proof.core n s t h

/-- A command leaves the events to come. -/
theorem exec_pending (i : Instr) (s t : State) (h : exec i s = .next t) : t.pending = s.pending := by
  rcases exec_cases i s t h with ⟨_, rfl⟩ | ⟨_, _, rfl⟩ | ⟨_, _, ⟨_, rfl⟩ | ⟨_, rfl⟩⟩ <;> simp

/-- The engine's turn leaves the events to come. -/
theorem engineTurn_pending (s t : State) (h : engineTurn s = .next t) : t.pending = s.pending := by
  unfold engineTurn complete at h
  split at h
  · split at h
    · exact exec_pending _ _ _ h
    · cases h; rfl
  · cases h; rfl

/-- A register's effect leaves the events to come. -/
theorem State.writeEffect_pending (s : State) (r : Reg) (v : Word) : (s.writeEffect r v).pending = s.pending := by
  cases r <;> (unfold State.writeEffect; try rfl)
  · simp only [State.controlWrite]; split <;> rfl
  · simp only [State.issue]; split <;> rfl

/-- An event leaves the events to come. -/
theorem runEvent_pending (e : Event) (s t : State) (h : runEvent e s = .next t) : t.pending = s.pending := by
  cases e with
  | engine => exact engineTurn_pending _ _ h
  | read a size =>
    cases h
    rcases s.hostRead_cases a size with ⟨_, h⟩ | ⟨_, _, h⟩ <;> rw [h] <;> rfl
  | write a size v =>
    cases h
    rcases s.hostWrite_cases a size v with h | ⟨_, _, _, h⟩ <;> rw [h]
    · rfl
    · exact State.writeEffect_pending _ _ _
  | hardReset => cases h; rfl

/-! The configuration: nothing changes it (00_scope.md R6, R7). -/

/-- A command keeps the sizes. -/
theorem exec_sizes (i : Instr) (s t : State) (h : exec i s = .next t) : t.sizes = s.sizes := by
  rcases exec_cases i s t h with ⟨_, rfl⟩ | ⟨_, _, rfl⟩ | ⟨_, _, ⟨_, rfl⟩ | ⟨_, rfl⟩⟩ <;> simp

/-- A register's effect keeps the sizes, a soft reset's too. -/
theorem State.writeEffect_sizes (s : State) (r : Reg) (v : Word) : (s.writeEffect r v).sizes = s.sizes := by
  cases r <;> (unfold State.writeEffect; try rfl)
  · simp only [State.controlWrite]; split <;> rfl
  · simp only [State.issue]; split <;> rfl

end Sys2Proof.Machine
end

