-- ==== Sys2Proof/Machine/StepCount.lean ====
section
/-! DEFINITION. The work of each command (70_reset_and_hazards.md R146): the only timing the spec states. No meaning depends
on it. -/

namespace Sys2Proof.Machine

/-- Register advances of a command that raises no error, one advance of one unit each (70_reset_and_hazards.md R146). -/
def advancesOf (i : Instr) (S : Snapshot) : Nat :=
  match i with
  | .adv1 n => n
  | .adv2 n => n
  | .advj n => 2 * n
  | .gen => 2 * (Config.discard + S.argLen.toNat)
  | .genid => 2 * (Config.discard + S.argLen.toNat)
  | .build => Config.numIds * (2 * (Config.discard + S.argLen.toNat))
  | .nop => 0
  | .xload => 0
  | .cinit => 0
  | .commit => 0
  | .inval => 0
  | .find => 0
  | .report => 0

/-- The bound on the comparisons of a command: of recorded lengths for COMMIT, of bits for FIND and REPORT
(70_reset_and_hazards.md R146). -/
def comparisonBound (i : Instr) (s : State) : Nat :=
  match i with
  | .commit => Config.numIds
  | .find => Config.numIds * (s.cacheLen.toNat + 1 - s.snap.queryLen.toNat) * s.snap.queryLen.toNat
  | .report => 64 * Config.numIds * s.cacheLen.toNat * 64
  | .nop => 0
  | .xload => 0
  | .adv1 _ => 0
  | .adv2 _ => 0
  | .advj _ => 0
  | .gen => 0
  | .cinit => 0
  | .genid => 0
  | .build => 0
  | .inval => 0

end Sys2Proof.Machine
end

