-- ==== Sys2Proof/Tests/Slice0.lean ====
section
/-! SUPPORT. Small tests. Expected results are those of spec/95_test_vectors.md (V-…) and of the rules' own examples. -/

set_option Elab.async false

namespace Sys2Proof.Tests

open Sys2Proof.Machine

/-! Words written out from the fields of 30_encoding.md R70 and R72. -/

theorem test_decode_nop : decode 0b00000000000000000000000000000000#32 = .ok .nop := by decide
theorem test_decode_xload : decode 0b00000000000000000000000000000001#32 = .ok .xload := by decide
/-- V-D6 -/
theorem test_decode_adv1 : decode 0b11111111111111110000000000000010#32 = .ok (.adv1 65535) := by decide
/-- V-D7 -/
theorem test_decode_adv2 : decode 0b00000000001000000000000000000011#32 = .ok (.adv2 32) := by decide
theorem test_decode_advj : decode 0b00000110001000010000000000000100#32 = .ok (.advj 1569) := by decide
theorem test_decode_gen : decode 0b00000000000000000000000000000101#32 = .ok .gen := by decide
theorem test_decode_cinit : decode 0b00000000000000000000000000000110#32 = .ok .cinit := by decide
theorem test_decode_genid : decode 0b00000000000000000000000000000111#32 = .ok .genid := by decide
theorem test_decode_build : decode 0b00000000000000000000000000001000#32 = .ok .build := by decide
theorem test_decode_commit : decode 0b00000000000000000000000000001001#32 = .ok .commit := by decide
theorem test_decode_inval : decode 0b00000000000000000000000000001010#32 = .ok .inval := by decide
theorem test_decode_find : decode 0b00000000000000000000000000001011#32 = .ok .find := by decide
theorem test_decode_report : decode 0b00000000000000000000000000001100#32 = .ok .report := by decide
/-- V-D2, V-D8 -/
theorem test_decode_count_not_allowed :
    decode 0x00010000#32 = .illegal .countNotAllowed ∧ decode 0x00010005#32 = .illegal .countNotAllowed := by decide
/-- V-D3, V-D9 -/
theorem test_decode_reserved_bits :
    decode 0x00000100#32 = .illegal .reservedBitsSet ∧ decode 0x0001010B#32 = .illegal .reservedBitsSet := by decide
/-- V-D4, V-D5 -/
theorem test_decode_reserved_opcode :
    decode 0x0000000D#32 = .illegal .reservedOpcode ∧ decode 0x000000FF#32 = .illegal .reservedOpcode := by decide
/-- The encodings of 30_encoding.md R78. -/
theorem test_encode : encode (.adv2 32) = 0x00200003#32 ∧ encode .report = 0x0000000C#32 := by decide

/-! A count of 65536 does not fit CNT. -/

theorem test_wf_adv1_refuses : (Instr.adv1 65536).wf = false ∧ (Instr.adv1 65535).wf = true := by decide
theorem test_wf_adv2_refuses : (Instr.adv2 65536).wf = false ∧ (Instr.adv2 0).wf = true := by decide
theorem test_wf_advj_refuses : (Instr.advj 70000).wf = false ∧ (Instr.advj 65535).wf = true := by decide

/-! Commands. -/

/-- `s` with the command accepted. -/
def ready (i : Instr) (s : State) : State := s.accept (encode i)

/-- Whether the outcome is a next state with the property. -/
def gives (o : Outcome) (p : State → Bool) : Bool :=
  match o with
  | .next t => p t
  | .fault _ => false
  | .refused _ => false

/-- The state after reset with both units loaded from `c`, as XLOAD leaves them. -/
def loaded (c : Word) : State := { State.reset with x1 := loadX1, x2 := loadX2 c }

/-- 45_system.md R116, example -/
theorem test_nop : gives (exec .nop (ready .nop .reset)) (fun t => t.statusWord == 0x2#32 && t.lastCmd == 0#32) = true := by
  decide +kernel

/-- V-L1, V-L14 -/
theorem test_xload :
    gives (exec .xload (ready .xload { State.reset with argCinit := 0x00760000#32 }))
      (fun t => t.x1.stateWord == 1#32 && t.x2.stateWord == 0x00760000#32) = true ∧
    gives (exec .xload (ready .xload { State.reset with argCinit := 0xFFFFFFFF#32 }))
      (fun t => t.x2.stateWord == 0x7FFFFFFF#32) = true := by
  decide +kernel

/-- V-L6 -/
theorem test_adv1 :
    gives (exec (.adv1 32) (ready (.adv1 32) (loaded 0#32)))
      (fun t => t.x1.stateWord == 0x48000000#32 && t.x1.ptr == 1 && t.x1.cnt == 32#32 && t.x1.last) = true := by
  decide +kernel

/-- V-W9, V-W11 -/
theorem test_adv1_window_check :
    gives (exec (.adv1 1) (ready (.adv1 1) { loaded 0#32 with winEn := true, winCap := 0#32 }))
      (fun t => t.err == .invalidParameter && t.x1 == loadX1) = true ∧
    gives (exec (.adv1 1) (ready (.adv1 1) { loaded 0#32 with winEn := false, winCap := 0#32 }))
      (fun t => t.err == .noError && t.x1.cnt == 1#32) = true := by
  decide +kernel

/-- V-W1 -/
theorem test_adv2_window :
    gives (exec (.adv2 32) (ready (.adv2 32) { loaded 1#32 with winEn := true, winCap := 4#32 }))
      (fun t => t.x2.stateWord == 0x78000000#32 && t.x2.win == [true, true, true, true] && t.resBits == 0x6#32 &&
        t.readValue .winLen == 0x00040000#32) = true := by
  decide +kernel

/-- V-L17 -/
theorem test_advj :
    gives (exec (.advj 32) (ready (.advj 32) (loaded 0x7FFFFFFF#32)))
      (fun t => t.x1.stateWord == 0x48000000#32 && t.x2.stateWord == 0x28000000#32 && t.resBits == 0x5#32) = true := by
  decide +kernel

/-- V-W6: lowering the capacity trims at the next push -/
theorem test_winpush_trims :
    winpush [true, false, false, false, false, false, false, false] false 3 = [false, false, false] := by decide

/-- V-G10a -/
theorem test_gen :
    gives (exec .gen (ready .gen { State.reset with argCinit := 0x00760000#32, argLen := 33#32 }))
      (fun t => t.outLen == 33#32 && t.outWinWord 0 == 0x3620695F#32 && t.outWinWord 1 == 0#32) = true := by
  decide +kernel

/-- V-G14 -/
theorem test_gen_too_long :
    gives (exec .gen (ready .gen { State.reset with argLen := 8193#32 }))
      (fun t => t.err == .invalidParameter && t.outLen == 0#32 && t.x1.cnt == 0#32) = true := by
  decide +kernel

/-- V-C5, V-C11 -/
theorem test_cinit_values :
    cinitFn 65535#32 14#32 4#32 2#32 = 0x7F8BFFFE#32 ∧
      cinitFn 5#32 0xFFFFFFFF#32 0xFFFFFFFF#32 0xFFFFFFFF#32 = 0x0016000A#32 := by
  decide +kernel

/-- V-C2, V-C12 -/
theorem test_cinit :
    gives (exec .cinit (ready .cinit { State.reset with argId := 1#32 })) (fun t => t.resCinit == 0x01620002#32) = true ∧
    gives (exec .cinit (ready .cinit { State.reset with argId := 65536#32 }))
      (fun t => t.err == .invalidParameter && t.resCinit == 0#32) = true := by
  decide +kernel

/-- V-C15, its first word -/
theorem test_genid :
    gives (exec .genid (ready .genid { State.reset with argId := 1#32, argLen := 32#32 }))
      (fun t => t.resCinit == 0x01620002#32 && t.outWinWord 0 == 0xCAD5463B#32) = true := by
  decide +kernel

/-- V-C16, V-C17 -/
theorem test_genid_checks :
    gives (exec .genid (ready .genid { State.reset with argId := 65536#32, argLen := 8193#32 }))
      (fun t => t.err == .invalidParameter && t.resCinit == 0#32) = true ∧
    gives (exec .genid (ready .genid { State.reset with argLen := 8193#32 }))
      (fun t => t.err == .invalidParameter && t.resCinit == 0#32) = true := by
  decide +kernel

/-- V-K1, the first word of entry 1 -/
theorem test_build :
    gives (exec .build (ready .build { State.reset with argLen := 32#32, cacheSel := 1#16 }))
      (fun t => t.cacheLen == 32#32 && t.cacheState == .valid && t.readValue .cacheElen == 32#32 &&
        t.cacheWinWord 0 == 0xCAD5463B#32) = true := by
  decide +kernel

/-- V-K9 -/
theorem test_commit_mismatch :
    gives (exec .commit (ready .commit { State.reset with argLen := 64#32 }))
      (fun t => t.statusWord == 0x222#32 && t.cacheLen == 64#32) = true := by
  decide +kernel

/-- V-K5 -/
theorem test_inval :
    gives (exec .inval (ready .inval { State.reset with cacheState := .valid, cacheLen := 64#32 }))
      (fun t => t.statusWord == 0x2#32 && t.cacheLen == 64#32) = true := by
  decide +kernel

/-- Entry 0 of V-K1. -/
def entryZero : CacheEntry := ⟨(Cells.blank Config.maxBits).store 0 64 0x2F65385E3620695F, 64#32⟩

/-- V-F8, V-F10: the positions in entry 0 of a 32-bit and a 16-bit tail -/
theorem test_find_position :
    State.reset.matchPos (fun j => (0x2F65385E : Nat).testBit j) 32 64 0 entryZero = some 32 ∧
      State.reset.matchPos (fun j => (0x2F65 : Nat).testBit j) 16 64 0 entryZero = some 48 := by
  decide +kernel

/-- V-F18, V-F19, V-F20 -/
theorem test_find_errors :
    gives (exec .find (ready .find .reset)) (fun t => t.err == .invalidParameter) = true ∧
    gives (exec .find (ready .find { State.reset with queryLen := 64#32 })) (fun t => t.err == .cacheUnavailable) = true ∧
    gives (exec .find (ready .find { State.reset with queryLen := 1#32, cacheState := .stale }))
      (fun t => t.err == .cacheMismatch) = true := by
  decide +kernel

/-- V-F9 and V-R1: entry 0's own tail of length 24 is found once among itself and an all-zero entry -/
theorem test_report_count :
    State.reset.countMatches [(0, entryZero), (1, ⟨(Cells.blank Config.maxBits).store 0 64 0, 64#32⟩)]
      (fun j => (0x2F6538 : Nat).testBit j) 24 64 = 1 := by
  decide +kernel

/-- V-R4, V-R5, V-R6 -/
theorem test_report_errors :
    gives (exec .report (ready .report { State.reset with cacheState := .valid, cacheLen := 16#32 }))
      (fun t => t.err == .invalidParameter) = true ∧
    gives (exec .report (ready .report { State.reset with argId := 65536#32 })) (fun t => t.err == .invalidParameter) = true ∧
    gives (exec .report (ready .report .reset)) (fun t => t.err == .cacheUnavailable) = true := by
  decide +kernel

/-! The host port and reset. -/

/-- V-M1, V-M2 -/
theorem test_constants :
    State.reset.readValue .id = 0x47333101#32 ∧ State.reset.readValue .param0 = 0x06210640#32 ∧
      State.reset.readValue .param1 = 0x01000100#32 ∧ State.reset.readValue .param2 = 0x1F401000#32 := by
  decide +kernel

/-- Sizes at the bounds of 00_scope.md R7: the least for the cache and the windows, the largest for OUTBUF. -/
def otherSizes : Config.Sizes where
  winCapMax := 256
  genMaxBits := 65536
  cacheMaxBits := 64
  winCapMax_legal := by decide
  genMaxBits_legal := by decide
  cacheMaxBits_legal := by decide

/-- 10_state.md R29, R32, R33 at other sizes: the size registers, the last words of both windows and the first past them. -/
theorem test_sizes_map :
    let s : State := { State.reset with sizes := otherSizes }
    s.readValue .param1 = 0x00020800#32 ∧ s.readValue .param2 = 0x1F400100#32 ∧
      (s.hostRead 0x5FFC#16 4).accErr = false ∧ (s.hostRead 0x6000#16 4).accErr = true ∧
      (s.hostRead 0x2004#16 4).accErr = false ∧ (s.hostRead 0x2008#16 4).accErr = true ∧ s.hardReset.sizes = otherSizes := by
  decide +kernel

/-- 43_seed_cache.md R105 and 40_lfsr.md R84 at other sizes: one bit, one capacity past the size is INVALID_PARAMETER. -/
theorem test_sizes_checks :
    gives (exec .build (ready .build { State.reset with sizes := otherSizes, argLen := 65#32 }))
      (fun t => t.err == .invalidParameter) = true ∧
    gives (exec (.adv1 1) (ready (.adv1 1) { State.reset with sizes := otherSizes, winEn := true, winCap := 257#32 }))
      (fun t => t.err == .invalidParameter) = true := by
  decide +kernel

/-- V-M4, V-M5, V-M6 -/
theorem test_refused_accesses :
    (State.reset.hostWrite 0x000#16 4 0#32).accErr = true ∧ (State.reset.hostRead 0x002#16 4).readData = some 0#32 ∧
      (State.reset.hostRead 0x000#16 2).accErr = true ∧ (State.reset.hostRead 0x078#16 4).accErr = true ∧
      (State.reset.hostRead 0x4400#16 4).accErr = true ∧ (State.reset.hostRead 0x43FC#16 4).accErr = false := by
  decide +kernel

/-- V-M7, V-M14 -/
theorem test_ctrl :
    (State.reset.hostWrite 0x010#16 4 0x7FFFFFFF#32).ctrlWord = 0x3#32 ∧
      ({ State.reset with argLen := 7#32 }.hostWrite 0x010#16 4 0x80000003#32).ctrlWord = 0#32 ∧
      ({ State.reset with argLen := 7#32 }.hostWrite 0x010#16 4 0x80000003#32).argLen = 0#32 := by
  decide +kernel

/-- V-M8 -/
theorem test_status_w1c :
    let s : State := { State.reset with
      busy := true, done := true, cmdLost := true, accErr := true, cacheState := .stale, err := .cacheMismatch }
    (s.hostWrite 0x014#16 4 0xFFFFFFFF#32).statusWord = 0x221#32 := by
  decide +kernel

/-- V-M9 -/
theorem test_byte_view :
    (List.finRange 4).map (byteOf 0x3620695F#32) = [0x5F#8, 0x69#8, 0x20#8, 0x36#8] := by decide +kernel

/-- V-M10, V-M12 -/
theorem test_busy_refusals :
    ((ready .gen .reset).hostRead 0x080#16 4).accErr = true ∧ ((ready .gen .reset).hostWrite 0x018#16 4 0#32).cmdLost = true ∧
      ((ready .gen .reset).hostWrite 0x018#16 4 0#32).lastCmd = 0x5#32 := by
  decide +kernel

/-- 10_state.md R44, R45: a host write of an entry is read back, masked by its length, and empties the cache -/
theorem test_cache_port :
    (({ State.reset with cacheState := .valid }.hostWrite 0x05C#16 4 20#32).hostWrite 0x2000#16 4 0x3620695F#32).cacheWinWord 0 =
        0x0000695F#32 ∧
      ({ State.reset with cacheState := .valid }.hostWrite 0x2004#16 4 0#32).cacheState = .empty := by
  decide +kernel

/-- 70_reset_and_hazards.md R140: an aborted GEN loses the bits it could have written, an aborted INVAL none -/
theorem test_abort :
    let full : Cells Config.maxBits := (Cells.blank Config.maxBits).store 0 16 0xFFFF
    let busyGen := ready .gen { State.reset with argLen := 8#32, outbuf := full }
    let busyInval := ready .inval { State.reset with outbuf := full }
    busyGen.softReset.outbuf.known = maskBits Config.maxBits 8 8 ∧ busyInval.softReset.outbuf.known = maskBits Config.maxBits 0 16 := by
  decide +kernel

/-- An illegal word is accepted and completes with ILLEGAL_COMMAND (V-D8): with ARG_LEN = 8193 still 4. -/
theorem test_step_illegal :
    gives (step ({ State.reset with argLen := 8193#32 }.withFetchWord 32 0x00010005)) (fun t => t.statusWord == 0x402#32) = true := by
  decide +kernel

/-- V-L2 by a step: XLOAD's state, then the word of ADV1 1 -/
theorem test_step_runs_word :
    gives (step ((loaded 0#32).withFetchWord 32 0x00010002)) (fun t => t.x1.stateWord == 0x40000000#32 && t.pending == []) =
      true := by
  decide +kernel

/-- P5: IRQ rises at completion with IE = 1 and falls at `ack` -/
theorem test_irq :
    gives (exec .nop (ready .nop { State.reset with ie := true })) (fun t => t.irq && !(t.hostWrite 0x014#16 4 2#32).irq) = true := by
  decide +kernel

/-- 41_gold.md R90 and V-G4 need 1600 steps; the recurrence of 40_lfsr.md R79 on V-L7 and V-L11 -/
theorem test_reference_sequences :
    (List.range 32).map (fun m => refX1 (m + 31)) = [true] ++ List.replicate 27 false ++ [true, false, false, true] ∧
      (List.range 32).map (fun m => refX2 1#32 (m + 31)) = [true] ++ List.replicate 27 false ++ [true, true, true, true] := by
  decide +kernel

/-! Witnesses: for each statement with hypotheses, states and operands that meet them together, clause by clause, at the
bounds of their ranges. -/

/-- The state with the word accepted. -/
def accepted (w : Word) : State := State.reset.accept w

/-- A command that answers a next state with the error code `e`. -/
def AnswersWith (i : Instr) (s : State) (e : ErrCode) : Prop := ∃ t, exec i s = .next t ∧ t.err = e

theorem answers_error (i : Instr) (s : State) (e : ErrCode) (he : e ≠ .noError) (h : firstError (checksOf i s) = e) :
    AnswersWith i s e := ⟨_, exec_error i s (by rw [h]; exact he), h⟩

theorem answers_ok (i : Instr) (s : State) (hi : i ≠ .commit) (h : firstError (checksOf i s) = .noError) :
    AnswersWith i s .noError := ⟨_, exec_ok i s hi h, rfl⟩

theorem answers_of_gives (i : Instr) (s : State) (e : ErrCode) (h : gives (exec i s) (fun t => t.err == e) = true) :
    AnswersWith i s e := by
  unfold gives at h
  split at h
  · rename_i t ht
    exact ⟨t, ht, by simpa using h⟩
  · cases h
  · cases h

theorem witness_DecodeFollowsFieldTests :
    (0x00000100#32 : Word).toNat / 256 % 256 ≠ 0 ∧
    ((0x0000000D#32 : Word).toNat / 256 % 256 = 0 ∧ 0x0C < (0x0000000D#32 : Word).toNat % 256) ∧
    ((0x0001000C#32 : Word).toNat / 256 % 256 = 0 ∧ (0x0001000C#32 : Word).toNat % 256 ≤ 0x0C ∧
      (0x0001000C#32 : Word).toNat / 65536 ≠ 0) ∧
    ((0xFFFF0004#32 : Word).toNat / 256 % 256 = 0 ∧ (0xFFFF0004#32 : Word).toNat % 256 = 4) ∧
    ((0x0000000C#32 : Word).toNat % 256 ≤ 0x0C ∧ (0x0000000C#32 : Word).toNat / 65536 = 0) ∧
    decode (accepted 0x0000000D#32).snap.cmd = .illegal .reservedOpcode := by decide

theorem witness_IllegalWordsHaveNoOtherEffect :
    State.reset.busy = false ∧ (accepted 0x0001000C#32).busy = true ∧
      decode (accepted 0x0001000C#32).snap.cmd = .illegal .countNotAllowed := by decide

theorem witness_DecodeInvertsEncode : (Instr.adv1 65535).wf = true ∧ Instr.report.wf = true := by decide

theorem witness_EncodeInvertsDecode : decode 0xFFFF0004#32 = .ok (.advj 65535) := by decide

theorem witness_StepRunsDecodedCommand :
    ((accepted 0x5#32).busy = true ∧ decode (accepted 0x5#32).snap.cmd = .ok .gen ∧ (accepted 0x5#32).pending = []) ∧
    (∃ s : State, s.busy = true ∧ decode s.snap.cmd = .ok .gen ∧ s.pending = .engine :: [.hardReset]) ∧
    (State.reset.busy = false ∧ decode 0xFFFF0004#32 = .ok (.advj 65535)) := by
  exact ⟨by decide, ⟨{ accepted 0x5#32 with pending := [.engine, .hardReset] }, by decide⟩, by decide⟩

theorem witness_StepPerformsHostEvents :
    ({ State.reset with pending := [.read 0x014#16 4, .hardReset] } : State).pending = .read 0x014#16 4 :: [.hardReset] ∧
    ({ State.reset with pending := [.write 0x018#16 4 5#32] } : State).pending = .write 0x018#16 4 5#32 :: [] ∧
    ({ State.reset with pending := [.hardReset] } : State).pending = .hardReset :: [] := by decide

theorem witness_QuiescentBlockKeepsItsState :
    (State.reset.busy = false ∧ State.reset.pending = []) ∧
    ({ State.reset with pending := [.engine] } : State).pending = .engine :: [] := by decide

theorem witness_EveryCommandCompletes : (accepted 0xFFFFFFFF#32).busy = true := by decide

theorem witness_FailedCommandsHaveNoEffect :
    AnswersWith .find (ready .find .reset) .invalidParameter ∧
    AnswersWith .commit (ready .commit { State.reset with argLen := 8192#32 }) .cacheMismatch ∧
    (∃ t, complete (accepted 0xFF#32) = .next t) :=
  ⟨answers_error _ _ _ (by decide) (by decide), answers_of_gives _ _ _ (by decide +kernel), ⟨_, rfl⟩⟩

/-- Recording with the capacity `K`, the length `L`, the identifier `id`. -/
def operands (K L id : Word) : State :=
  { State.reset with winEn := true, winCap := K, argLen := L, argId := id, queryLen := 64#32 }

/-- A VALID cache of recorded length `N` with entry 0 of V-K1. -/
def searchable (N id len : Word) : State :=
  { State.reset with
    cacheState := .valid, cacheLen := N, cache := [(0, entryZero)], argId := id, queryLen := len,
    queryLo := 0x3620695F#32, queryHi := 0x2F65385E#32 }

theorem witness_ErrorPriority_illegal : decode (accepted 0x10000000#32).snap.cmd = .illegal .countNotAllowed := by decide

theorem witness_ErrorPriority_advances :
    AnswersWith (.adv1 1) (ready (.adv1 1) (operands 0#32 0#32 0#32)) .invalidParameter ∧
    AnswersWith (.adv2 1) (ready (.adv2 1) (operands 4097#32 0#32 0#32)) .invalidParameter ∧
    AnswersWith (.advj 65535) (ready (.advj 65535) (operands 4096#32 0#32 0#32)) .noError ∧
    AnswersWith .nop (ready .nop (operands 0#32 8193#32 65536#32)) .noError :=
  ⟨answers_error _ _ _ (by decide) (by decide), answers_error _ _ _ (by decide) (by decide),
    answers_ok _ _ (by decide) (by decide), answers_ok _ _ (by decide) (by decide)⟩

theorem witness_ErrorPriority_generation :
    AnswersWith .gen (ready .gen (operands 1#32 8193#32 0#32)) .invalidParameter ∧
    AnswersWith .gen (ready .gen (operands 1#32 8192#32 0#32)) .noError ∧
    AnswersWith .cinit (ready .cinit (operands 1#32 0#32 65536#32)) .invalidParameter ∧
    AnswersWith .cinit (ready .cinit (operands 1#32 0#32 65535#32)) .noError ∧
    AnswersWith .genid (ready .genid (operands 0#32 8192#32 65535#32)) .invalidParameter ∧
    AnswersWith .genid (ready .genid (operands 4096#32 8192#32 65535#32)) .noError ∧
    AnswersWith .build (ready .build (operands 4097#32 8192#32 65536#32)) .invalidParameter ∧
    AnswersWith .build (ready .build (operands 4096#32 8192#32 65536#32)) .noError :=
  ⟨answers_error _ _ _ (by decide) (by decide), answers_ok _ _ (by decide) (by decide),
    answers_error _ _ _ (by decide) (by decide), answers_ok _ _ (by decide) (by decide),
    answers_error _ _ _ (by decide) (by decide), answers_ok _ _ (by decide) (by decide),
    answers_error _ _ _ (by decide) (by decide), answers_ok _ _ (by decide) (by decide)⟩

theorem witness_ErrorPriority_commit :
    AnswersWith .commit (ready .commit (operands 1#32 8193#32 0#32)) .invalidParameter ∧
    AnswersWith .commit (ready .commit (operands 1#32 8192#32 0#32)) .cacheMismatch ∧
    (ready .commit (operands 1#32 8192#32 0#32)).elen 0 ≠ (ready .commit (operands 1#32 8192#32 0#32)).snap.argLen ∧
    (∀ id, id < 65536 → (ready .commit .reset).elen id = (ready .commit .reset).snap.argLen) :=
  ⟨answers_error _ _ _ (by decide) (by decide), answers_of_gives _ _ _ (by decide +kernel), by decide, fun _ _ => rfl⟩

theorem witness_ErrorPriority_search :
    AnswersWith .find (ready .find (searchable 64#32 0#32 0#32)) .invalidParameter ∧
    AnswersWith .find (ready .find (searchable 64#32 0#32 65#32)) .invalidParameter ∧
    AnswersWith .find (ready .find (operands 1#32 0#32 0#32)) .cacheUnavailable ∧
    AnswersWith .find (ready .find { searchable 64#32 0#32 1#32 with cacheState := .stale }) .cacheMismatch ∧
    AnswersWith .find (ready .find (searchable 64#32 0#32 64#32)) .noError ∧
    AnswersWith .report (ready .report (searchable 64#32 65536#32 0#32)) .invalidParameter ∧
    AnswersWith .report (ready .report { searchable 63#32 65535#32 0#32 with cacheState := .empty }) .cacheUnavailable ∧
    AnswersWith .report (ready .report { searchable 63#32 65535#32 0#32 with cacheState := .stale }) .cacheMismatch ∧
    AnswersWith .report (ready .report (searchable 63#32 65535#32 0#32)) .invalidParameter ∧
    AnswersWith .report (ready .report (searchable 64#32 65535#32 0#32)) .noError :=
  ⟨answers_error _ _ _ (by decide) (by decide), answers_error _ _ _ (by decide) (by decide),
    answers_error _ _ _ (by decide) (by decide), answers_error _ _ _ (by decide) (by decide),
    answers_ok _ _ (by decide) (by decide), answers_error _ _ _ (by decide) (by decide),
    answers_error _ _ _ (by decide) (by decide), answers_error _ _ _ (by decide) (by decide),
    answers_error _ _ _ (by decide) (by decide), answers_ok _ _ (by decide) (by decide)⟩

theorem witness_ErrorPriority_access :
    State.reset.reaches 0x4400#16 4 = none ∧ State.reset.reaches 0x016#16 4 = none ∧ (accepted 0#32).busy = true ∧
      State.reset.reaches 0x01C#16 4 = some .outLen ∧ Reg.outLen.isRO = true := by
  decide

/-- The capacity check is met with recording off and any capacity, and with recording on at both bounds. -/
theorem witness_windowLegal :
    (ready (.adv1 1) .reset).snap.WindowLegal (ready (.adv1 1) .reset).sizes ∧ (ready (.adv1 1) (operands 1#32 0#32 0#32)).snap.WindowLegal (ready (.adv1 1) (operands 1#32 0#32 0#32)).sizes ∧
      (ready (.adv1 1) (operands 4096#32 0#32 0#32)).snap.WindowLegal (ready (.adv1 1) (operands 4096#32 0#32 0#32)).sizes := by
  refine ⟨?_, ?_, ?_⟩ <;> unfold Snapshot.WindowLegal <;> decide

theorem witness_Adv1AdvancesX1 :
    ∃ (s : State) (x : Nat → Bool), s.snap.WindowLegal s.sizes ∧ s.snap.winEn = true ∧ (∀ j, j < 31 → x j = s.x1.seq j) ∧
      ∀ k, x (k + 31) = (x (k + 3) ^^ x k) := by
  refine ⟨ready (.adv1 65535) (operands 4096#32 0#32 0#32), refX1, ?_, rfl, ?_, fun k => by rw [refX1]⟩
  · unfold Snapshot.WindowLegal; decide
  · decide +kernel

theorem witness_Adv1AdvancesX1_off : (ready (.adv1 0) .reset).snap.winEn = false := by decide

theorem witness_Adv2AdvancesX2 :
    ∃ (s : State) (x : Nat → Bool), s.snap.WindowLegal s.sizes ∧ s.snap.winEn = true ∧ (∀ j, j < 31 → x j = s.x2.seq j) ∧
      ∀ k, x (k + 31) = (x (k + 3) ^^ x (k + 2) ^^ x (k + 1) ^^ x k) := by
  refine ⟨ready (.adv2 65535) { operands 1#32 0#32 0#32 with x2 := loadX2 5#32 }, refX2 5#32, ?_, rfl, ?_,
    fun k => by rw [refX2]⟩
  · unfold Snapshot.WindowLegal; decide
  · decide +kernel

theorem witness_AdvjAdvancesBoth : (ready (.advj 65535) (operands 4096#32 0#32 0#32)).snap.WindowLegal (ready (.advj 65535) (operands 4096#32 0#32 0#32)).sizes := by
  unfold Snapshot.WindowLegal; decide

theorem witness_generation :
    let s := ready .gen (operands 4096#32 8192#32 65535#32)
    s.snap.argLen.toNat ≤ s.sizes.genMaxBits ∧ s.snap.argId.toNat ≤ 65535 ∧ s.snap.WindowLegal s.sizes := by
  unfold Snapshot.WindowLegal; decide

theorem witness_GenWritesGoldSequence :
    let s := ready .gen (operands 1#32 8191#32 0#32)
    s.snap.argLen.toNat ≤ s.sizes.genMaxBits ∧ s.snap.WindowLegal s.sizes ∧ s.snap.argLen.toNat < s.sizes.genMaxBits := by
  unfold Snapshot.WindowLegal; decide

theorem witness_CinitComputesFormula : (ready .cinit (operands 1#32 0#32 65535#32)).snap.argId.toNat ≤ 65535 := by decide

theorem witness_GenidGeneratesFromFormula :
    let s := ready .genid (operands 4096#32 0#32 0#32)
    s.snap.argId.toNat ≤ 65535 ∧ s.snap.argLen.toNat ≤ s.sizes.genMaxBits ∧ s.snap.WindowLegal s.sizes := by
  unfold Snapshot.WindowLegal; decide

theorem witness_BuildFillsEveryEntry :
    let s := ready .build (operands 1#32 8191#32 65536#32)
    s.snap.argLen.toNat ≤ s.sizes.cacheMaxBits ∧ s.snap.WindowLegal s.sizes ∧ s.snap.argLen.toNat < s.sizes.cacheMaxBits := by
  unfold Snapshot.WindowLegal; decide

theorem witness_CommitValidatesLengths :
    ((ready .commit .reset).snap.argLen.toNat ≤ (ready .commit .reset).sizes.cacheMaxBits ∧
      ∀ id, id < 65536 → (ready .commit .reset).elen id = (ready .commit .reset).snap.argLen) ∧
    ∃ s : State, s.snap.argLen.toNat ≤ s.sizes.cacheMaxBits ∧ s.elen 65535 ≠ s.snap.argLen :=
  ⟨⟨by decide, fun _ _ => rfl⟩, ready .commit { State.reset with argLen := 8192#32 }, by decide⟩

theorem witness_FindListsEveryMatch :
    let s := ready .find (searchable 64#32 0#32 64#32)
    1 ≤ s.snap.queryLen.toNat ∧ s.snap.queryLen.toNat ≤ 64 ∧ s.cacheState = .valid ∧ s.cacheLen.toNat ≤ s.sizes.cacheMaxBits ∧
      s.result.sorted := by decide

/-- Entry 0 of V-K1 holds the whole query, so FIND's list is not empty. -/
theorem witness_FindListsEveryMatch_hit :
    let s := ready .find (searchable 64#32 0#32 64#32)
    ∀ j, j < s.snap.queryLen.toNat → s.cacheBit 0 (0 + j) = s.snap.queryBit j := by decide +kernel

theorem witness_ReportCountsTailMatches :
    let s := ready .report (searchable 64#32 65535#32 0#32)
    s.snap.argId.toNat ≤ 65535 ∧ s.cacheState = .valid ∧ 64 ≤ s.cacheLen.toNat := by decide

theorem witness_WindowHoldsLastBits :
    ([] : List Bool).length + 1 ≤ 1 ∧ 1 ≤ ([true] : List Bool).length + 1 ∧ 0 ≤ ([] : List Bool).length + 1 := by decide

theorem witness_WindowCapacityCheck :
    ((ready .build (operands 0#32 0#32 0#32)).snap.winEn = true ∧
      (ready .build (operands 0#32 0#32 0#32)).snap.winCap.toNat = 0) ∧
    (ready .build .reset).sizes.winCapMax < (ready .build (operands 4097#32 0#32 0#32)).snap.winCap.toNat ∧ (ready .nop .reset).snap.winEn = false := by
  decide

theorem witness_ZeroStateIsFixedAndNeverReachedByX1 :
    (0#32 : Word).toNat % 2 ^ 31 = 0 ∧ (0x80000000#32 : Word).toNat % 2 ^ 31 = 0 := by decide

theorem witness_LockStepGivesGoldBits :
    AnswersWith .gen (ready .gen (operands 1#32 8192#32 0#32)) .noError ∧
    AnswersWith .genid (ready .genid .reset) .noError ∧ AnswersWith .build (ready .build .reset) .noError :=
  ⟨answers_ok _ _ (by decide) (by decide), answers_ok _ _ (by decide) (by decide), answers_ok _ _ (by decide) (by decide)⟩

theorem witness_OutputDependsOnLengthAndSeedOnly :
    let s := ready .gen { State.reset with argLen := 8192#32, argCinit := 0x80000001#32 }
    let s' := ready .gen { operands 1#32 8192#32 0#32 with argCinit := 1#32 }
    s.snap.argLen = s'.snap.argLen ∧ (∀ k, k < 31 → s.snap.argCinit.getLsbD k = s'.snap.argCinit.getLsbD k) ∧
      AnswersWith .gen s .noError ∧ AnswersWith .gen s' .noError :=
  ⟨by decide, by decide, answers_ok _ _ (by decide) (by decide), answers_ok _ _ (by decide) (by decide)⟩

theorem witness_IdentifierRangeIsChecked :
    65535 < (ready .cinit (operands 1#32 0#32 65536#32)).snap.argId.toNat ∧
    AnswersWith .build (ready .build (operands 1#32 0#32 65536#32)) .noError :=
  ⟨by decide, answers_ok _ _ (by decide) (by decide)⟩

theorem witness_CacheLifecycle_commands :
    AnswersWith .build (ready .build .reset) .noError ∧
    AnswersWith .commit (ready .commit { State.reset with argLen := 1#32 }) .cacheMismatch ∧
    (∃ t, exec .inval (ready .inval .reset) = .next t) ∧ State.reset.busy = false ∧
    (255 : Fin 2048).val < State.reset.sizes.cacheWords :=
  ⟨answers_ok _ _ (by decide) (by decide), answers_of_gives _ _ _ (by decide +kernel), ⟨_, rfl⟩, rfl, by decide⟩

/-- COMMIT succeeds where every recorded length is the request. -/
theorem witness_CacheLifecycle_commit :
    AnswersWith .commit (ready .commit .reset) .noError := by
  have h : (ready .commit .reset).everyLenIs (ready .commit .reset).snap.argLen = true :=
    (State.everyLenIs_iff _ _).2 fun _ _ => rfl
  have hc : firstError (commitChecks (ready .commit .reset).sizes (ready .commit .reset).snap) = .noError := by decide
  have hx : execCommit (ready .commit .reset) =
      .next ({ ready .commit .reset with
        cacheLen := (ready .commit .reset).snap.argLen, cacheState := .valid }.finish .noError) := by
    unfold execCommit
    rw [hc, h]
    rfl
  exact ⟨_, hx, rfl⟩

/-- Steps that change CACHE_STATE: a hardware reset, a soft reset, a host write, and INVAL. -/
theorem witness_CacheLifecycle_steps :
    gives (step { searchable 0#32 0#32 0#32 with pending := [.hardReset] }) (fun t => t.cacheState == .empty) = true ∧
    gives (step { searchable 0#32 0#32 0#32 with pending := [srst] }) (fun t => t.cacheState == .empty) = true ∧
    gives (step { searchable 0#32 0#32 0#32 with pending := [wr .cacheElen 0#32] })
      (fun t => t.cacheState == .empty) = true ∧
    gives (step (ready .inval (searchable 0#32 0#32 0#32))) (fun t => t.cacheState == .empty) = true := by decide +kernel

theorem witness_HostCacheWrites :
    State.reset.busy = false ∧ (accepted 0#32).busy = true ∧ (255 : Fin 2048).val < State.reset.sizes.cacheWords ∧
      8159 < 32 * (255 : Fin 2048).val ∧ 32 * (254 : Fin 2048).val + 32 ≤ 8191 ∧ 8191 < State.reset.sizes.cacheMaxBits ∧
      (1 : Nat) ≠ State.reset.cacheSel.toNat := by decide

theorem witness_LoadedEntryHoldsItsWords :
    State.reset.busy = false ∧ 65535 < 65536 ∧ (List.replicate 256 0xFFFFFFFF#32).length ≤ State.reset.sizes.cacheWords ∧
      8191 < 32 * (List.replicate 256 0xFFFFFFFF#32).length ∧ 32 * (List.replicate 255 0#32).length ≤ 8191 ∧
      8191 < State.reset.sizes.cacheMaxBits := by
  simp only [List.length_replicate]
  decide

theorem witness_TailOfAnEntryIsFound :
    let s := ready .find (searchable 64#32 0#32 64#32)
    s.cacheState = .valid ∧ s.cacheLen.toNat ≤ s.sizes.cacheMaxBits ∧ s.result.sorted ∧ 1 ≤ s.snap.queryLen.toNat ∧
      s.snap.queryLen.toNat ≤ 64 ∧ s.snap.queryLen.toNat ≤ s.cacheLen.toNat ∧
      (∀ j, j < s.snap.queryLen.toNat →
        s.snap.queryBit j = s.cacheBit 0 (s.cacheLen.toNat - s.snap.queryLen.toNat + j)) ∧
      AnswersWith .find s .noError :=
  ⟨by decide, by decide, by decide, by decide, by decide, by decide, by decide +kernel,
    answers_ok _ _ (by decide) (by decide)⟩

theorem witness_ReportCountsNeverGrow : AnswersWith .report (ready .report (searchable 64#32 0#32 0#32)) .noError :=
  answers_ok _ _ (by decide) (by decide)

theorem witness_OffsetsNameRegisters :
    Reg.listedAt .decided 0x43FC#16 = some (.outWin 255) ∧ Reg.listedAt .decided 0x098#16 = some .x2Cnt ∧
      Reg.listedAt .decided 0x1FC#16 = some (.report 63) ∧ Reg.listedAt .decided 0x078#16 = none ∧
      Reg.listedAt .decided 0x4400#16 = none ∧ Reg.listedAt otherSizes 0x5FFC#16 = some (.outWin 2047) ∧ Reg.listedAt otherSizes 0x2008#16 = none ∧
      ((∀ w, Reg.id ≠ .cacheWin w) ∧ ∀ w, Reg.id ≠ .outWin w) := by
  refine ⟨?_, ?_, ?_, ?_, ?_, ?_, ?_, ?_, ?_⟩ <;> first | decide +kernel | exact fun w => Reg.noConfusion

theorem witness_HostReadFollowsChecks :
    ((2 : Nat) ≠ 4 ∧ (0x016#16 : BitVec 16).toNat % 4 ≠ 0) ∧
    ((0x4400#16 : BitVec 16).toNat % 4 = 0 ∧ Reg.listedAt .decided 0x4400#16 = none) ∧
    (Reg.listedAt .decided 0x080#16 = some .x1State ∧ Reg.x1State.isBR = true ∧ (accepted 0#32).busy = true) ∧
    (Reg.listedAt .decided 0x43FC#16 = some (.outWin 255) ∧ State.reset.busy = false) := by decide

theorem witness_HostWriteFollowsChecks :
    ((1 : Nat) ≠ 4 ∧ (0x041#16 : BitVec 16).toNat % 4 ≠ 0) ∧
    ((0x078#16 : BitVec 16).toNat % 4 = 0 ∧ Reg.listedAt .decided 0x078#16 = none) ∧
    (Reg.listedAt .decided 0x2000#16 = some (.cacheWin 0) ∧ (Reg.cacheWin 0).isBR = true ∧ (accepted 0#32).busy = true) ∧
    (Reg.listedAt .decided 0x01C#16 = some .outLen ∧ Reg.outLen.isRO = true) ∧
    (Reg.listedAt .decided 0x018#16 = some .cmd ∧ Reg.cmd.isBR = false ∧ Reg.cmd.isRO = false) := by decide

theorem witness_ReadOnlyWritesAreDropped :
    (Reg.x2Cnt = .x2Cnt ∧ Reg.x2Cnt.isRO = true) ∧ (∃ k, Reg.report 63 = .report k) ∧ ∃ w, Reg.outWin 255 = .outWin w :=
  ⟨by decide, ⟨63, rfl⟩, ⟨255, rfl⟩⟩

theorem witness_XloadLoadsBothRegisters : 30 < 31 ∧ (ready .xload .reset).busy = true := by decide

theorem witness_LogicalViewFollowsSequence : 30 < 31 ∧ (30 + loadX1.ptr.val) % 31 = 30 := by decide

theorem witness_WindowWordsAreMasked : 31 < 32 ∧ 32 * (255 : Fin 2048).val + 31 < State.reset.sizes.cacheMaxBits := by decide

theorem witness_BusyRefusal : (accepted 0xFFFF0002#32).busy = true := by decide

theorem witness_OperandRegistersStoreAsWritten :
    Reg.winCap ∈ operandRegs ∧ Reg.queryHi ∈ operandRegs ∧ (0x7FFFFFFF#32 : Word).getLsbD 31 = false := by decide

theorem witness_ObservationRegistersRead :
    let s : State := { State.reset with resCount := 65536#32, resultIdx := 0xFFFF#16, winSel := true, winIdx := 0#16 }
    s.resultIdx.toNat < s.resCount.toNat ∧ State.reset.resCount.toNat ≤ State.reset.resultIdx.toNat ∧
      ({ s with x2 := { loadX2 0#32 with win := [true] } } : State).x2.win[0]? = some true ∧
      s.x2.win.length ≤ s.winIdx.toNat ∧ s.x1.win.length ≤ 65535 ∧ s.x2.win.length ≤ 65535 := by decide

theorem witness_CommandAcceptance : (accepted 0#32).busy = true ∧ State.reset.busy = false := by decide

theorem witness_RunningCommandReadsSnapshotOnly :
    State.reset.busy = false ∧ (accepted 5#32).busy = true ∧ Reg.argLen ∈ operandRegs ∧
      (0x7FFFFFFF#32 : Word).getLsbD 31 = false := by decide

theorem witness_InterruptFollowsCompletion :
    (accepted 0#32).busy = true ∧ (2#32 : Word).getLsbD 1 = true ∧ (0xFFFFFFFE#32 : Word).getLsbD 0 = false := by decide

theorem witness_HardwareResetValues : (accepted 5#32).hardReset = (accepted 5#32).hardReset ∧ resetReads.length = 34 ∧
    (accepted 5#32).hardReset.sizes = .decided :=
  ⟨rfl, by decide, rfl⟩

theorem witness_SoftResetKeepsMemories :
    (0x80000003#32 : Word).getLsbD 31 = true ∧ (searchable 64#32 0#32 0#32).busy = false ∧
      (searchable 64#32 0#32 0#32).cache.sorted := by decide

theorem witness_BusyResetLosesOnlyTargetCells :
    let s := ready .gen { searchable 64#32 0#32 0#32 with argLen := 8191#32 }
    (0x80000000#32 : Word).getLsbD 31 = true ∧ s.busy = true ∧ s.cache.sorted ∧ s.snap.argLen.toNat ≤ 8191 ∧ 8191 < s.sizes.genMaxBits ∧
      decode s.snap.cmd ≠ .ok .build ∧ decode s.snap.cmd ≠ .ok .find ∧
      decode (accepted 8#32).snap.cmd ≠ .ok .gen ∧ decode (accepted 8#32).snap.cmd ≠ .ok .genid := by decide

/-- A state with an accepted command that meets the invariant, and its step. -/
theorem witness_StepKeepsInv : Inv (accepted 0#32) ∧ ∃ t, step (accepted 0#32) = .next t := by
  refine ⟨⟨?_, ?_, ?_, ?_, ?_, ?_, ?_, ?_, ?_, ?_, ?_, ?_, ?_, ?_, ?_⟩, _, rfl⟩ <;>
    simp [accepted, State.reset, Cells.wf, Cells.blank, cacheWf, Memory.wf, Memory.get, State.cacheEntry, CacheEntry.blank,
      Lfsr.atSeed, Lfsr.zero, FreeMark.drawnBelow]

theorem witness_StepKeepsConfiguration :
    gives (step { State.reset with sizes := otherSizes, pending := [srst] }) (fun t => t.sizes == otherSizes) = true := by
  decide +kernel

end Sys2Proof.Tests
end

section
/-! The courses of the loaded units: the sequences of 40_lfsr.md R79, the views of freshly loaded units, and the logical view
after any number of advances (10_state.md R16). -/

namespace Sys2Proof.Machine

/-! The sequences: the loaded bits, then the recurrence (40_lfsr.md R79, R81). -/

theorem refX1_of_lt (j : Nat) (hj : j < 31) : refX1 j = seedX1 j := by
  rw [refX1]
  omega

theorem refX1_add_31 (k : Nat) : refX1 (k + 31) = (refX1 (k + 3) ^^ refX1 k) := by
  rw [refX1]

theorem refX2_of_lt (c : Word) (j : Nat) (hj : j < 31) : refX2 c j = seedX2 c j := by
  rw [refX2]
  omega

theorem refX2_add_31 (c : Word) (k : Nat) :
    refX2 c (k + 31) = (refX2 c (k + 3) ^^ refX2 c (k + 2) ^^ refX2 c (k + 1) ^^ refX2 c k) := by
  rw [refX2]

/-! A freshly loaded unit shows its seed (40_lfsr.md R81): the pointer is 0, so the view is the physical array. -/

theorem loadX1_seq (j : Nat) (hj : j < 31) : loadX1.seq j = seedX1 j := by
  simp [Lfsr.seq, loadX1, seedX1, Nat.mod_eq_of_lt hj]

theorem loadX2_seq (c : Word) (j : Nat) (hj : j < 31) : (loadX2 c).seq j = seedX2 c j := by
  simp [Lfsr.seq, loadX2, seedX2, Nat.mod_eq_of_lt hj, hj]

/-! `m` advances carry the view `m` places along the sequence, and the unit's feedback is the sequence's next bit. -/

/-- `Lfsr.advN_follows` at X1's taps, for any sequence that obeys X1's recurrence. -/
theorem Lfsr.advN_tapsX1_follows (u : Lfsr) (window : Option Nat) (x : Nat → Bool) (h0 : ∀ j, j < 31 → x j = u.seq j)
    (hr : ∀ k, x (k + 31) = (x (k + 3) ^^ x k)) (m : Nat) :
    (∀ j, j < 31 → (u.advN tapsX1 window m).seq j = x (m + j)) ∧
      (u.advN tapsX1 window m).feedback tapsX1 = x (m + 31) :=
  Lfsr.advN_follows tapsX1 window u (fun f => f 3 ^^ f 0) Lfsr.feedback_tapsX1
    (fun f g h => by simp [h]) x h0 hr m

/-- `Lfsr.advN_follows` at X2's taps, for any sequence that obeys X2's recurrence. -/
theorem Lfsr.advN_tapsX2_follows (u : Lfsr) (window : Option Nat) (x : Nat → Bool) (h0 : ∀ j, j < 31 → x j = u.seq j)
    (hr : ∀ k, x (k + 31) = (x (k + 3) ^^ x (k + 2) ^^ x (k + 1) ^^ x k)) (m : Nat) :
    (∀ j, j < 31 → (u.advN tapsX2 window m).seq j = x (m + j)) ∧
      (u.advN tapsX2 window m).feedback tapsX2 = x (m + 31) :=
  Lfsr.advN_follows tapsX2 window u (fun f => f 3 ^^ f 2 ^^ f 1 ^^ f 0) Lfsr.feedback_tapsX2
    (fun f g h => by simp [h]) x h0 hr m

theorem loadX1_advN_follows (window : Option Nat) (m : Nat) :
    (∀ j, j < 31 → (loadX1.advN tapsX1 window m).seq j = refX1 (m + j)) ∧
      (loadX1.advN tapsX1 window m).feedback tapsX1 = refX1 (m + 31) :=
  Lfsr.advN_tapsX1_follows loadX1 window refX1
    (fun j hj => (refX1_of_lt j hj).trans (loadX1_seq j hj).symm) refX1_add_31 m

theorem loadX2_advN_follows (window : Option Nat) (c : Word) (m : Nat) :
    (∀ j, j < 31 → ((loadX2 c).advN tapsX2 window m).seq j = refX2 c (m + j)) ∧
      ((loadX2 c).advN tapsX2 window m).feedback tapsX2 = refX2 c (m + 31) :=
  Lfsr.advN_tapsX2_follows (loadX2 c) window (refX2 c)
    (fun j hj => (refX2_of_lt c j hj).trans (loadX2_seq c j hj).symm) (refX2_add_31 c) m

/-- Bits 30..0 of X1_STATE and X2_STATE are the unit's logical view (10_state.md R49). -/
theorem Lfsr.stateWord_getLsbD (u : Lfsr) (j : Nat) (hj : j < 31) : u.stateWord.getLsbD j = u.seq j := by
  have hj32 : j < 32 := by omega
  simp [Lfsr.stateWord, hj, hj32]

/-- Settles O27, clause by clause: the view's definition, the courses of the two loaded units, the registers' bits, and the
physical array recovered from the view. -/
theorem logicalViewFollowsSequence : Obligations.LogicalViewFollowsSequence := by
  unfold Obligations.LogicalViewFollowsSequence
  refine ⟨fun u j _ => rfl, fun window c m j hj => ⟨?_, ?_⟩, fun s j hj => ⟨?_, ?_⟩, Lfsr.phys_getLsbD⟩
  · exact (loadX1_advN_follows window m).1 j hj
  · exact (loadX2_advN_follows window c m).1 j hj
  · exact s.x1.stateWord_getLsbD j hj
  · exact s.x2.stateWord_getLsbD j hj

end Sys2Proof.Machine
end

section
/-! The checks of a host access, one rule per outcome of `State.reaches`, and the host's reads and writes they decide
(20_memory.md R53 to R58). -/

namespace Sys2Proof.Machine

/-- No register stands at an offset that is not a multiple of 4 (10_state.md R29). -/
theorem Reg.aligned_of_ofOffset {a : BitVec 16} {r : Reg} (h : Reg.ofOffset a = some r) : a.toNat % 4 = 0 := by
  apply Decidable.byContradiction
  intro hmis
  rw [Reg.ofOffset, if_pos hmis] at h
  cases h

section

variable {s : State} {a : BitVec 16} {size : Nat} {r : Reg}

/-- Width and alignment (20_memory.md R55). -/
theorem State.reaches_eq_none_of_width_or_alignment (h : size ≠ 4 ∨ a.toNat % 4 ≠ 0) : s.reaches a size = none :=
  if_pos h

/-- Reserved offsets (20_memory.md R56). -/
theorem State.reaches_eq_none_of_listedAt (h : Reg.listedAt s.sizes a = none) : s.reaches a size = none := by
  simp [State.reaches, h]

/-- A 32-bit access at a listed offset reaches the register there unless it is refused as busy (20_memory.md R58). -/
theorem State.reaches_of_listedAt (h : Reg.listedAt s.sizes a = some r) :
    s.reaches a 4 = if r.isBR && s.busy then none else some r := by
  have haligned : a.toNat % 4 = 0 := Reg.aligned_of_ofOffset ((Reg.listedAt_eq_some_iff _ _ _).1 h).1
  simp [State.reaches, haligned, h]

theorem State.hostRead_of_reaches_none (h : s.reaches a size = none) :
    s.hostRead a size = { s with accErr := true, readData := some 0#32 } := by
  rw [State.hostRead, h]
  rfl

theorem State.hostRead_of_reaches_some (h : s.reaches a size = some r) :
    s.hostRead a size = { s with readData := some (s.readValue r) } := by
  rw [State.hostRead, h]

theorem State.hostWrite_of_reaches_none (v : Word) (h : s.reaches a size = none) :
    s.hostWrite a size v = { s with accErr := true } := by
  rw [State.hostWrite, h]
  rfl

theorem State.hostWrite_of_reaches_some (v : Word) (h : s.reaches a size = some r) (hro : r.isRO = false) :
    s.hostWrite a size v = s.writeEffect r v := by
  simp [State.hostWrite, h, hro]

/-- A write at the offset of a register of class RO is dropped, whatever the checks before that one answer: each of them
sets ACC_ERR too (20_memory.md R57). -/
theorem State.hostWrite_of_isRO (v : Word) (h : Reg.ofOffset a = some r) (hro : r.isRO = true) :
    s.hostWrite a size v = { s with accErr := true } := by
  rcases s.hostWrite_cases a size v with herr | ⟨r', hreach, hro', -⟩
  · exact herr
  · obtain ⟨hlisted, -, -⟩ := s.reaches_some a size r' hreach
    have hr' : Reg.ofOffset a = some r' := ((Reg.listedAt_eq_some_iff _ _ _).1 hlisted).1
    obtain rfl : r = r' := Option.some.inj (h.symm.trans hr')
    rw [hro] at hro'
    cases hro'

end

/-- Settles O43: each clause fixes what the read reaches. -/
theorem hostReadFollowsChecks : Obligations.HostReadFollowsChecks := by
  unfold Obligations.HostReadFollowsChecks
  refine fun s a size => ⟨fun hbad => ?_, fun _ _ hnone => ?_, ?_, ?_⟩
  · exact State.hostRead_of_reaches_none (State.reaches_eq_none_of_width_or_alignment hbad)
  · exact State.hostRead_of_reaches_none (State.reaches_eq_none_of_listedAt hnone)
  · rintro r rfl hr hbr hbusy
    exact State.hostRead_of_reaches_none (by simp [State.reaches_of_listedAt hr, hbr, hbusy])
  · rintro r rfl hr hfree
    exact State.hostRead_of_reaches_some (by simpa [State.reaches_of_listedAt hr] using hfree)

/-- Settles O44: each clause but the RO one fixes what the write reaches. -/
theorem hostWriteFollowsChecks : Obligations.HostWriteFollowsChecks := by
  unfold Obligations.HostWriteFollowsChecks
  refine fun s a size v => ⟨fun hbad => ?_, fun _ _ hnone => ?_, ?_, rfl, rfl⟩
  · exact State.hostWrite_of_reaches_none v (State.reaches_eq_none_of_width_or_alignment hbad)
  · exact State.hostWrite_of_reaches_none v (State.reaches_eq_none_of_listedAt hnone)
  · rintro r rfl hr
    refine ⟨fun hbr hbusy => ?_, fun hro => ?_, fun hfree hro => ?_⟩
    · exact State.hostWrite_of_reaches_none v (by simp [State.reaches_of_listedAt hr, hbr, hbusy])
    · exact State.hostWrite_of_isRO v ((Reg.listedAt_eq_some_iff _ _ _).1 hr).1 hro
    · exact State.hostWrite_of_reaches_some v (by simpa [State.reaches_of_listedAt hr] using hfree) hro

/-- Settles O45: every register of the list is of class RO. -/
theorem readOnlyWritesAreDropped : Obligations.ReadOnlyWritesAreDropped := by
  unfold Obligations.ReadOnlyWritesAreDropped
  intro s v r hr
  have hro : r.isRO = true := by
    rcases hr with hmem | ⟨k, rfl⟩ | ⟨w, rfl⟩
    · revert r
      decide
    · rfl
    · rfl
  exact State.hostWrite_of_isRO v (Reg.ofOffset_offset r) hro

end Sys2Proof.Machine
end

section
/-! The decoder, one equation per outcome of 30_encoding.md R74's tests, in terms of the word's fields as numbers (R70). -/

namespace Sys2Proof

/-! The fields of a word (30_encoding.md R70). -/

@[simp] theorem opField_toNat (w : Word) : (opField w).toNat = w.toNat % 256 := by
  simp [opField]

@[simp] theorem rsvField_toNat (w : Word) : (rsvField w).toNat = w.toNat / 256 % 256 := by
  simp [rsvField, Nat.shiftRight_eq_div_pow]

@[simp] theorem cntField_toNat (w : Word) : (cntField w).toNat = w.toNat / 65536 := by
  have hlt : w.toNat < 2 ^ 32 := w.isLt
  simp only [cntField, BitVec.extractLsb'_toNat, Nat.shiftRight_eq_div_pow]
  omega

theorem rsvField_eq_zero_iff (w : Word) : rsvField w = 0#8 ↔ w.toNat / 256 % 256 = 0 := by
  rw [← BitVec.toNat_inj, rsvField_toNat, BitVec.toNat_ofNat, Nat.zero_mod]

theorem cntField_eq_zero_iff (w : Word) : cntField w = 0#16 ↔ w.toNat / 65536 = 0 := by
  rw [← BitVec.toNat_inj, cntField_toNat, BitVec.toNat_ofNat, Nat.zero_mod]

/-! The command an opcode selects (30_encoding.md R71, R72). -/

theorem Instr.takesCount_iff (i : Instr) : i.takesCount = true ↔ i.opcode = 2 ∨ i.opcode = 3 ∨ i.opcode = 4 := by
  cases i <;> simp [Instr.takesCount, Instr.opcode]

section

variable {op cnt : Nat} {i : Instr}

theorem commandOf_eq_none_iff : commandOf op cnt = none ↔ 0x0C < op := by
  unfold commandOf
  split
  -- the arm for every other opcode
  case h_14 => exact iff_of_true rfl (by grind)
  all_goals simp

theorem opcode_of_commandOf (h : commandOf op cnt = some i) : i.opcode = op := by
  unfold commandOf at h
  split at h <;> cases h <;> rfl

theorem count_of_commandOf (h : commandOf op cnt = some i) : i.count = if i.takesCount then cnt else 0 := by
  unfold commandOf at h
  split at h <;> cases h <;> rfl

theorem exists_commandOf_of_le (h : op ≤ 0x0C) : ∃ i, commandOf op cnt = some i :=
  Option.ne_none_iff_exists'.1 fun hnone => absurd (commandOf_eq_none_iff.1 hnone) (by omega)

end

/-! The three tests and the answer when all are passed (30_encoding.md R74). -/

section

variable {w : Word}

theorem decode_of_reservedBits (hrsv : w.toNat / 256 % 256 ≠ 0) : decode w = .illegal .reservedBitsSet := by
  simp [decode, rsvField_eq_zero_iff, hrsv]

theorem decode_of_reservedOpcode (hrsv : w.toNat / 256 % 256 = 0) (hop : 0x0C < w.toNat % 256) :
    decode w = .illegal .reservedOpcode := by
  simp [decode, rsvField_eq_zero_iff, hrsv, commandOf_eq_none_iff.2 hop]

/-- The third test, once the opcode has selected a command. -/
theorem decode_of_commandOf {i : Instr} (hrsv : w.toNat / 256 % 256 = 0)
    (hi : commandOf (w.toNat % 256) (w.toNat / 65536) = some i) :
    decode w = if ¬ i.takesCount ∧ w.toNat / 65536 ≠ 0 then .illegal .countNotAllowed else .ok i := by
  simp [decode, rsvField_eq_zero_iff, cntField_eq_zero_iff, hrsv, hi]

theorem decode_of_countNotAllowed (hrsv : w.toNat / 256 % 256 = 0) (hle : w.toNat % 256 ≤ 0x0C)
    (hop : w.toNat % 256 ≠ 2 ∧ w.toNat % 256 ≠ 3 ∧ w.toNat % 256 ≠ 4) (hcnt : w.toNat / 65536 ≠ 0) :
    decode w = .illegal .countNotAllowed := by
  obtain ⟨i, hi⟩ := exists_commandOf_of_le (cnt := w.toNat / 65536) hle
  have hno : ¬ i.takesCount := by
    rw [Instr.takesCount_iff, opcode_of_commandOf hi]
    omega
  rw [decode_of_commandOf hrsv hi, if_pos ⟨hno, hcnt⟩]

/-- A word that passes the three tests decodes, and nothing of its fields is lost. -/
theorem decode_of_legal (hrsv : w.toNat / 256 % 256 = 0) (hle : w.toNat % 256 ≤ 0x0C)
    (hcnt : (w.toNat % 256 = 2 ∨ w.toNat % 256 = 3 ∨ w.toNat % 256 = 4) ∨ w.toNat / 65536 = 0) :
    ∃ i, decode w = .ok i ∧ i.opcode = w.toNat % 256 ∧ i.count = w.toNat / 65536 := by
  obtain ⟨i, hi⟩ := exists_commandOf_of_le (cnt := w.toNat / 65536) hle
  have hallowed : i.takesCount = true ∨ w.toNat / 65536 = 0 := by
    rwa [Instr.takesCount_iff, opcode_of_commandOf hi]
  refine ⟨i, ?_, opcode_of_commandOf hi, ?_⟩
  · rw [decode_of_commandOf hrsv hi, if_neg fun ⟨hno, hne⟩ => hne (hallowed.resolve_left hno)]
  · rw [count_of_commandOf hi]
    split
    case isTrue => rfl
    case isFalse hno => exact (hallowed.resolve_left hno).symm

/-- Which words are illegal (30_encoding.md R73 (a), (b), (c)). -/
theorem decode_illegal_iff (w : Word) : (∃ why, decode w = .illegal why) ↔
    (0x0D ≤ w.toNat % 256 ∨ w.toNat / 256 % 256 ≠ 0 ∨
      (w.toNat % 256 ≠ 2 ∧ w.toNat % 256 ≠ 3 ∧ w.toNat % 256 ≠ 4 ∧ w.toNat / 65536 ≠ 0)) := by
  by_cases hrsv : w.toNat / 256 % 256 = 0
  case neg => exact iff_of_true ⟨_, decode_of_reservedBits hrsv⟩ (by omega)
  by_cases hle : w.toNat % 256 ≤ 0x0C
  case neg => exact iff_of_true ⟨_, decode_of_reservedOpcode hrsv (by omega)⟩ (by omega)
  by_cases hcnt : (w.toNat % 256 = 2 ∨ w.toNat % 256 = 3 ∨ w.toNat % 256 = 4) ∨ w.toNat / 65536 = 0
  case neg => exact iff_of_true ⟨_, decode_of_countNotAllowed hrsv hle (by omega) (by omega)⟩ (by omega)
  obtain ⟨i, hok, -, -⟩ := decode_of_legal hrsv hle hcnt
  exact iff_of_false (by simp [hok]) (by omega)

end

end Sys2Proof
end

section
/-! A command word's way through the block: the CMD write (30_encoding.md R75) and the completion of an illegal word (R73,
R74). -/

namespace Sys2Proof.Machine

section

variable {s : State}

/-- A CMD write passes the access checks whether the block is busy or not: CMD is neither RO nor BR (20_memory.md R57, R58). -/
@[simp] theorem State.hostWrite_cmd (v : Word) : s.hostWrite Reg.cmd.offset 4 v = s.issue v :=
  s.hostWrite_offset .cmd v rfl

theorem State.issue_of_busy (v : Word) (h : s.busy = true) : s.issue v = { s with cmdLost := true } :=
  if_pos h

theorem State.issue_of_idle (v : Word) (h : s.busy = false) : s.issue v = s.accept v := by
  simp [State.issue, h]

theorem complete_of_illegal {why : IllegalWord} (h : decode s.snap.cmd = .illegal why) :
    complete s = .next (s.finish .illegalCommand) := by
  simp [complete, h]

theorem engineTurn_of_busy (h : s.busy = true) : engineTurn s = complete s :=
  if_pos h

end

/-- Settles O2: one decoder equation per clause, and completion looks at the decoded word first. -/
theorem decodeFollowsFieldTests : Obligations.DecodeFollowsFieldTests := by
  unfold Obligations.DecodeFollowsFieldTests
  refine ⟨fun w => ⟨fun hrsv => ?_, fun hrsv hop => ?_, fun hrsv hle hop hcnt => ?_, decode_of_legal⟩,
    fun s why => complete_of_illegal⟩
  · exact ⟨_, decode_of_reservedBits hrsv⟩
  · exact ⟨_, decode_of_reservedOpcode hrsv hop⟩
  · exact ⟨_, decode_of_countNotAllowed hrsv hle hop hcnt⟩

/-- Settles O3: the illegal words, their acceptance, and their completion as a whole next state. -/
theorem illegalWordsHaveNoOtherEffect : Obligations.IllegalWordsHaveNoOtherEffect := by
  unfold Obligations.IllegalWordsHaveNoOtherEffect
  refine ⟨decode_illegal_iff, fun s w hidle => ?_, fun s why hbusy hill => ?_⟩
  · rw [State.hostWrite_cmd, State.issue_of_idle w hidle]
  · rw [engineTurn_of_busy hbusy, complete_of_illegal hill, State.finish]

/-- Settles O52: the write reaches `State.issue`, which branches on BUSY alone. -/
theorem commandAcceptance : Obligations.CommandAcceptance := by
  unfold Obligations.CommandAcceptance
  refine fun s v => ⟨fun hbusy => ?_, fun hidle => ?_⟩
  · rw [State.hostWrite_cmd, State.issue_of_busy v hbusy]
  · rw [State.hostWrite_cmd, State.issue_of_idle v hidle, State.accept]

end Sys2Proof.Machine
end

section
/-! The memory windows: pushing a bit (40_lfsr.md R83) and the capacity check of the advancing commands (R84). -/

namespace Sys2Proof.Machine

/-! A push, and pushes from the empty window (40_lfsr.md R83). -/

theorem winpush_suffix (w : List Bool) (b : Bool) (K : Nat) : winpush w b K <:+ w ++ [b] :=
  List.drop_suffix _ _

theorem winpush_of_fits {w : List Bool} {K : Nat} (b : Bool) (h : w.length + 1 ≤ K) : winpush w b K = w ++ [b] := by
  rw [winpush, Nat.sub_eq_zero_of_le h, List.drop_zero]

/-- `foldl_winpush` from the empty window, where it also holds of no pushes. -/
theorem foldl_winpush_nil (bits : List Bool) (K : Nat) :
    bits.foldl (fun w b => winpush w b K) [] = bits.drop (bits.length - K) := by
  cases bits with
  | nil => simp
  | cons b bs => exact foldl_winpush [] (b :: bs) K (List.cons_ne_nil b bs)

/-- Settles O28: a push is a `drop` whose length `length_winpush` gives, and so are `N` pushes from the empty window. -/
theorem windowHoldsLastBits : Obligations.WindowHoldsLastBits := by
  unfold Obligations.WindowHoldsLastBits
  refine ⟨fun w b K => ⟨?_, winpush_suffix w b K, winpush_of_fits b, fun hfull => ?_⟩, fun bits K => ⟨?_, ?_⟩⟩
  · rw [length_winpush]
    exact Nat.min_le_right _ _
  · rw [length_winpush, Nat.min_eq_right hfull]
  · rw [foldl_winpush_nil, List.length_drop]
    omega
  · have hdrop : bits.length - min bits.length K = bits.length - K := by omega
    rw [foldl_winpush_nil, hdrop]

/-! The capacity check (40_lfsr.md R84). -/

/-- Where every check names the same error, their order does not matter (60_exceptions.md R123). -/
theorem firstError_of_forall_eq {checks : List (Bool × ErrCode)} {e : ErrCode} (hall : ∀ c ∈ checks, c.2 = e)
    (hbad : (true, e) ∈ checks) : firstError checks = e := by
  induction checks with
  | nil => cases hbad
  | cons c cs ih =>
    obtain ⟨bad, e'⟩ := c
    cases bad with
    | true => exact hall _ List.mem_cons_self
    | false =>
      have htail : (true, e) ∈ cs := by simpa using hbad
      exact ih (fun c hc => hall c (List.mem_cons_of_mem _ hc)) htail

/-- The checks of the advancing commands: the window capacity is one of them, and each raises INVALID_PARAMETER. -/
theorem checksOf_advancing {i : Instr} {n : Nat} (s : State)
    (hi : i = .adv1 n ∨ i = .adv2 n ∨ i = .advj n ∨ i = .gen ∨ i = .genid ∨ i = .build) :
    (s.snap.windowIllegal s.sizes, .invalidParameter) ∈ checksOf i s ∧
      ∀ c ∈ checksOf i s, c.2 = .invalidParameter := by
  rcases hi with rfl | rfl | rfl | rfl | rfl | rfl <;>
    simp [checksOf, advanceChecks, genChecks, genidChecks, buildChecks]

theorem exec_of_windowIllegal {i : Instr} {n : Nat} {s : State}
    (hi : i = .adv1 n ∨ i = .adv2 n ∨ i = .advj n ∨ i = .gen ∨ i = .genid ∨ i = .build)
    (h : s.snap.windowIllegal s.sizes = true) : exec i s = .next (s.finish .invalidParameter) := by
  obtain ⟨hwindow, hall⟩ := checksOf_advancing s hi
  have herr : firstError (checksOf i s) = .invalidParameter := firstError_of_forall_eq hall (h ▸ hwindow)
  rw [exec_error i s (by simp [herr]), herr]

section

variable {S : Snapshot} (h : S.winEn = false)

include h

theorem Snapshot.windowIllegal_of_off (z : Config.Sizes) : S.windowIllegal z = false := by
  simp [Snapshot.windowIllegal, h]

theorem Snapshot.window_of_off : S.window = none := by
  simp [Snapshot.window, h]

end

/-- Settles O29: the check stands in every advancing command's list, it is false with recording off, and then no capacity
reaches the advances. -/
theorem windowCapacityCheck : Obligations.WindowCapacityCheck := by
  unfold Obligations.WindowCapacityCheck
  refine ⟨fun s n i hi hen hcap => ?_, fun z S K hoff => ?_, fun S taps u n hoff => ?_⟩
  · have hillegal : s.snap.windowIllegal s.sizes = true := (s.snap.windowIllegal_iff s.sizes).2 ⟨hen, by omega⟩
    rw [exec_of_windowIllegal hi hillegal, State.finish]
  · have hsame : ({ S with winCap := K } : Snapshot).windowIllegal z = S.windowIllegal z := by
      rw [Snapshot.windowIllegal_of_off hoff, Snapshot.windowIllegal_of_off (by exact hoff)]
    simp only [advanceChecks, genChecks, genidChecks, buildChecks, Snapshot.idIllegal, Snapshot.genLenIllegal,
      Snapshot.cacheLenIllegal, hsame, and_self]
  · rw [Snapshot.window_of_off hoff, Lfsr.advN_win_none]

end Sys2Proof.Machine
end

section
/-! The Gold sequence (41_gold.md R90, R91): the bits a run emits, and what they depend on. -/

namespace Sys2Proof.Machine

/-! The bits emitted after any number of discarded joint advances of freshly loaded units (41_gold.md R92). -/

/-- Emitted bit `n` after `d` discarded joint advances stands at place `n + (d + 31)` of both sequences. -/
theorem goldEmit_bits_of_loaded (window : Option Nat) (c : Word) (d L : Nat) :
    (goldEmit window L (loadX1.advN tapsX1 window d) ((loadX2 c).advN tapsX2 window d)).bits =
      (List.range L).map fun n => refX1 (n + (d + 31)) ^^ refX2 c (n + (d + 31)) := by
  refine List.ext_getElem? fun i => ?_
  by_cases hi : i < L
  · have hplace : d + i + 31 = i + (d + 31) := by omega
    rw [goldEmit_bit _ _ _ _ _ hi, ← Lfsr.advN_add, ← Lfsr.advN_add, (loadX1_advN_follows window (d + i)).2,
      (loadX2_advN_follows window c (d + i)).2, hplace]
    simp [hi]
  · simp [hi]

/-- A run emits the closed form, whatever the recording (41_gold.md R92): `P_DISCARD + 31 = P_NC`. -/
theorem goldrun_bits (window : Option Nat) (c : Word) (L : Nat) :
    (goldrun window c L).bits = (List.range L).map (goldRef c) :=
  goldEmit_bits_of_loaded window c Config.discard L

/-- 90_conflicts.md C1: the discard count 1599 would emit the sequence 30 places late. -/
theorem goldEmit_bits_of_discard_1599 (window : Option Nat) (c : Word) (L : Nat) :
    (goldEmit window L (loadX1.advN tapsX1 window 1599) ((loadX2 c).advN tapsX2 window 1599)).bits =
      (List.range L).map fun n => goldRef c (n + 30) :=
  goldEmit_bits_of_loaded window c 1599 L

theorem loadX1_advN_succ_last (window : Option Nat) (m : Nat) :
    (loadX1.advN tapsX1 window (m + 1)).last = refX1 (m + 31) := by
  rw [Lfsr.advN_succ_last, Lfsr.adv_last, (loadX1_advN_follows window m).2]

theorem loadX2_advN_succ_last (window : Option Nat) (c : Word) (m : Nat) :
    ((loadX2 c).advN tapsX2 window (m + 1)).last = refX2 c (m + 31) := by
  rw [Lfsr.advN_succ_last, Lfsr.adv_last, (loadX2_advN_follows window c m).2]

/-! The Gold bits 0 and 30 of c_init 0, which differ: X2 stays at 0, and X1's places 1600 and 1630 are reached by long
jumps. -/

theorem refX2_zero (n : Nat) : refX2 0#32 n = false := by
  induction n using Nat.strongRecOn with
  | ind n ih =>
    by_cases hn : n < 31
    · simp [refX2_of_lt _ _ hn, seedX2]
    · obtain ⟨k, rfl⟩ : ∃ k, n = k + 31 := ⟨n - 31, by omega⟩
      simp [refX2_add_31, ih (k + 3) (by omega), ih (k + 2) (by omega), ih (k + 1) (by omega), ih k (by omega)]

/-- X1's recurrence with both distances doubled `i` times: over GF(2) squaring `x^31 + x^3 + 1` doubles its exponents. -/
theorem refX1_add_31_mul_two_pow (i k : Nat) : refX1 (k + 31 * 2 ^ i) = (refX1 (k + 3 * 2 ^ i) ^^ refX1 k) := by
  induction i generalizing k with
  | zero => exact refX1_add_31 k
  | succ i ih =>
    have hlong : k + 31 * 2 ^ (i + 1) = (k + 31 * 2 ^ i) + 31 * 2 ^ i := by omega
    have hmixed : (k + 31 * 2 ^ i) + 3 * 2 ^ i = (k + 3 * 2 ^ i) + 31 * 2 ^ i := by omega
    have hshort : k + 3 * 2 ^ (i + 1) = (k + 3 * 2 ^ i) + 3 * 2 ^ i := by omega
    rw [hlong, ih, hmixed, ih, ih, hshort]
    simp

theorem refX1_add_496 (k : Nat) : refX1 (k + 496) = (refX1 (k + 48) ^^ refX1 k) := by
  simpa using refX1_add_31_mul_two_pow 4 k

theorem refX1_add_992 (k : Nat) : refX1 (k + 992) = (refX1 (k + 96) ^^ refX1 k) := by
  simpa using refX1_add_31_mul_two_pow 5 k

/-- Two jumps bring a place of X1 past the warm-up near the seed. -/
theorem refX1_add_1488 (k : Nat) :
    refX1 (k + 1488) = (refX1 (k + 144) ^^ refX1 (k + 96) ^^ (refX1 (k + 48) ^^ refX1 k)) :=
  calc refX1 (k + 1488)
      = (refX1 ((k + 96) + 496) ^^ refX1 (k + 496)) := refX1_add_992 (k + 496)
    _ = (refX1 (k + 144) ^^ refX1 (k + 96) ^^ (refX1 (k + 48) ^^ refX1 k)) := by
        rw [refX1_add_496, refX1_add_496]

theorem goldRef_zero (n : Nat) : goldRef 0#32 n = refX1 (n + 1600) := by
  rw [goldRef, refX2_zero, Bool.xor_false]

theorem goldRef_zero_at_0 : goldRef 0#32 0 = false := by
  rw [goldRef_zero, show 0 + 1600 = 112 + 1488 from rfl, refX1_add_1488]
  decide +kernel

theorem goldRef_zero_at_30 : goldRef 0#32 30 = true := by
  rw [goldRef_zero, show 30 + 1600 = 142 + 1488 from rfl, refX1_add_1488]
  decide +kernel

/-- Settles O31: both discard counts are `goldEmit_bits_of_loaded`, advance number 1569 + n + 1 returns the sequence's next bit,
and the two readings differ at place 0 of c_init 0. -/
theorem goldrunEqualsClosedForm : Obligations.GoldrunEqualsClosedForm := by
  unfold Obligations.GoldrunEqualsClosedForm
  refine ⟨goldrun_bits, fun window c n => ⟨?_, ?_⟩, goldEmit_bits_of_discard_1599, 0#32, 0, ?_⟩
  · rw [loadX1_advN_succ_last, Nat.add_right_comm, Nat.add_comm]
  · rw [loadX2_advN_succ_last, Nat.add_right_comm, Nat.add_comm]
  · rw [goldRef_zero_at_30, goldRef_zero_at_0]
    decide

/-! What the output depends on (41_gold.md R93). -/

/-- Loading X2 reads bits 30..0 of c_init only (40_lfsr.md R81). -/
theorem loadX2_congr {c c' : Word} (h : ∀ k, k < 31 → c.getLsbD k = c'.getLsbD k) : loadX2 c = loadX2 c' := by
  have hphys : c.extractLsb' 0 31 = c'.extractLsb' 0 31 :=
    BitVec.eq_of_getLsbD_eq fun k hk => by simp [hk, h k hk]
  rw [loadX2, loadX2, hphys]

theorem refX2_congr {c c' : Word} (h : ∀ k, k < 31 → c.getLsbD k = c'.getLsbD k) : refX2 c = refX2 c' := by
  funext n
  have hc := (loadX2_advN_follows none c n).1 0 (by omega)
  have hc' := (loadX2_advN_follows none c' n).1 0 (by omega)
  exact hc.symm.trans (loadX2_congr h ▸ hc')

theorem goldRef_congr {c c' : Word} (h : ∀ k, k < 31 → c.getLsbD k = c'.getLsbD k) : goldRef c = goldRef c' := by
  funext n
  rw [goldRef, goldRef, refX2_congr h]

/-- A GEN that completes without error has passed its length check and had its effect (41_gold.md R95). -/
theorem exec_gen_succeeded {s t : State} (h : exec .gen s = .next t) (herr : t.err = .noError) :
    s.snap.argLen.toNat ≤ s.sizes.genMaxBits ∧ t = (s.generate s.snap.argCinit).finish .noError := by
  obtain ⟨hbad, rfl⟩ | ⟨_, hok, rfl⟩ | ⟨hgen, _⟩ := exec_cases .gen s t h
  · exact absurd herr hbad
  · have hall := (firstError_noError_iff _ (by simp [checksOf, genChecks])).1 hok
    have hlen : s.snap.genLenIllegal s.sizes = false := hall (_, .invalidParameter) List.mem_cons_self
    exact ⟨by simpa [Snapshot.genLenIllegal] using hlen, rfl⟩
  · cases hgen

/-- OUT_LEN and the visible OUTBUF bits after a successful GEN, in the closed form (41_gold.md R92, R95). -/
theorem exec_gen_output {s t : State} (h : exec .gen s = .next t) (herr : t.err = .noError) :
    t.outLen = s.snap.argLen ∧ ∀ i, i < t.outLen.toNat → t.outBit i = goldRef s.snap.argCinit i := by
  obtain ⟨hlen, rfl⟩ := exec_gen_succeeded h herr
  refine ⟨rfl, fun i (hi : i < s.snap.argLen.toNat) => ?_⟩
  have hmax : i < Config.maxBits :=
    Nat.lt_of_lt_of_le (Nat.lt_of_lt_of_le hi hlen) s.sizes.genMaxBits_legal.2.2
  rw [State.outBit_finish, State.outBit_generate _ _ _ hmax, if_pos hi, goldrun_bits]
  simp [hi]

/-- Settles O33: a run emits the closed form, which reads c_init through X2's seed only, and a successful GEN leaves the run's
bits. -/
theorem outputDependsOnLengthAndSeedOnly : Obligations.OutputDependsOnLengthAndSeedOnly := by
  unfold Obligations.OutputDependsOnLengthAndSeedOnly
  refine ⟨fun window window' c c' L hseed => ?_, fun s s' t t' hlen hseed h herr h' herr' => ?_⟩
  · rw [goldrun_bits, goldrun_bits, goldRef_congr hseed]
  · obtain ⟨houtLen, hbits⟩ := exec_gen_output h herr
    obtain ⟨houtLen', hbits'⟩ := exec_gen_output h' herr'
    have hsame : t.outLen = t'.outLen := by rw [houtLen, houtLen', hlen]
    refine ⟨hsame, fun i hi => ?_⟩
    rw [hbits i hi, hbits' i (hsame ▸ hi), goldRef_congr hseed]

end Sys2Proof.Machine
end

section
/-! The c_init calculator (42_cinit.md): the 32-bit realisation against the formula over the integers (R96, R97, R99), and the
range check of the identifier (R98). -/

namespace Sys2Proof.Machine

/-! The realisation and the formula (42_cinit.md R96, R97). -/

theorem toNat_and_mask31 (v : Word) : (v &&& 0x7FFFFFFF#32).toNat = v.toNat % 2 ^ 31 := by
  rw [BitVec.toNat_and]
  exact Nat.and_two_pow_sub_one_eq_mod v.toNat 31

theorem cinitFn_toNat_steps (id sps slot sym : Word) :
    let t1 := (sps.toNat * slot.toNat + sym.toNat + 1) % 2 ^ 32
    let t2 := (t1 * 2 ^ 17) % 2 ^ 32
    let t3 := (t2 * ((2 * id.toNat + 1) % 2 ^ 32)) % 2 ^ 32
    let t4 := (t3 + 2 * id.toNat) % 2 ^ 32
    (cinitFn id sps slot sym).toNat = t4 % 2 ^ 31 := by
  simp only [cinitFn, toNat_and_mask31, BitVec.toNat_add, BitVec.toNat_mul, BitVec.toNat_ofNat, Nat.add_mod_mod,
    Nat.mod_add_mod] <;> rfl

/-! Congruence of sums and products, as `Int.emod` equations. -/

theorem add_emod_congr {a a' b b' n : Int} (ha : a % n = a' % n) (hb : b % n = b' % n) :
    (a + b) % n = (a' + b') % n := by
  rw [Int.add_emod, ha, hb, ← Int.add_emod]

theorem mul_emod_congr {a a' b b' n : Int} (ha : a % n = a' % n) (hb : b % n = b' % n) :
    (a * b) % n = (a' * b') % n := by
  rw [Int.mul_emod, ha, hb, ← Int.mul_emod]

/-- The four steps of the realisation over the integers: 2^31 divides 2^32, so a step's reduction does not show modulo 2^31. -/
theorem cinitSteps_emod (id sps slot sym : Int) :
    (((sps * slot + sym + 1) % 2 ^ 32 * 2 ^ 17 % 2 ^ 32 * ((2 * id + 1) % 2 ^ 32) % 2 ^ 32 + 2 * id) % 2 ^ 32) % 2 ^ 31 =
      cinitFormula id sps slot sym := by
  have reduced (x : Int) : x % 2 ^ 32 % 2 ^ 31 = x % 2 ^ 31 := Int.emod_emod_of_dvd x (by decide)
  have step2 := (reduced _).trans (mul_emod_congr (reduced (sps * slot + sym + 1)) (Eq.refl (2 ^ 17 % 2 ^ 31)))
  have step3 := (reduced _).trans (mul_emod_congr step2 (reduced (2 * id + 1)))
  have step4 := (reduced _).trans (add_emod_congr step3 (Eq.refl (2 * id % 2 ^ 31)))
  rw [cinitFormula, Int.mul_comm (2 ^ 17)]
  exact step4

theorem cinitFn_eq_cinitFormula (id sps slot sym : Word) :
    ((cinitFn id sps slot sym).toNat : Int) = cinitFormula id.toNat sps.toNat slot.toNat sym.toNat := by
  rw [cinitFn_toNat_steps, ← cinitSteps_emod]
  rfl

/-- The formula depends on its arguments modulo 2^31 only. -/
theorem cinitFormula_congr {id id' sps sps' slot slot' sym sym' : Int} (hid : id % 2 ^ 31 = id' % 2 ^ 31)
    (hsps : sps % 2 ^ 31 = sps' % 2 ^ 31) (hslot : slot % 2 ^ 31 = slot' % 2 ^ 31)
    (hsym : sym % 2 ^ 31 = sym' % 2 ^ 31) : cinitFormula id sps slot sym = cinitFormula id' sps' slot' sym' := by
  have htwice : 2 * id % 2 ^ 31 = 2 * id' % 2 ^ 31 := mul_emod_congr rfl hid
  have hsymbol : (sps * slot + sym + 1) % 2 ^ 31 = (sps' * slot' + sym' + 1) % 2 ^ 31 :=
    add_emod_congr (add_emod_congr (mul_emod_congr hsps hslot) hsym) rfl
  exact add_emod_congr (mul_emod_congr (mul_emod_congr rfl hsymbol) (add_emod_congr htwice rfl)) htwice

/-- A word's two readings agree modulo 2^32, and so modulo 2^31. -/
theorem toNat_emod_eq_toInt_emod (w : Word) : (w.toNat : Int) % 2 ^ 31 = w.toInt % 2 ^ 31 := by
  rw [BitVec.toInt_eq_toNat_cond]
  split <;> omega

/-- Settles O34: the steps, the formula on the unsigned values, its congruence for the two's-complement values, and check lists
that name none of the three operands. -/
theorem cinitRealisationIsExact : Obligations.CinitRealisationIsExact := by
  unfold Obligations.CinitRealisationIsExact
  refine ⟨cinitFn_toNat_steps, fun id sps slot sym => ⟨cinitFn_eq_cinitFormula id sps slot sym, ?_⟩,
    fun z S a b c => ⟨rfl, rfl, rfl⟩⟩
  rw [cinitFn_eq_cinitFormula]
  exact cinitFormula_congr (toNat_emod_eq_toInt_emod id) (toNat_emod_eq_toInt_emod sps) (toNat_emod_eq_toInt_emod slot)
    (toNat_emod_eq_toInt_emod sym)

/-- Settles O36: the formula is evaluated, and the realisation's word is read off it. -/
theorem cinitReferenceValue : Obligations.CinitReferenceValue := by
  unfold Obligations.CinitReferenceValue
  have hformula : cinitFormula 0 14 4 2 = 7733248 := by decide
  refine ⟨hformula, BitVec.eq_of_toNat_eq (Int.ofNat_inj.1 ?_)⟩
  exact (cinitFn_eq_cinitFormula 0#32 14#32 4#32 2#32).trans hformula

/-! The identifier (42_cinit.md R98). -/

theorem exec_of_idIllegal {i : Instr} {s : State} (hi : i = .cinit ∨ i = .genid) (h : s.snap.idIllegal = true) :
    exec i s = .next (s.finish .invalidParameter) := by
  have herr : firstError (checksOf i s) = .invalidParameter := by
    rcases hi with rfl | rfl <;> simp [checksOf, cinitChecks, genidChecks, firstError, h]
  rw [exec_error i s (by simp [herr]), herr]

/-- The state with another identifier in the snapshot. -/
def State.withSnapId (s : State) (a : Word) : State := { s with snap := { s.snap with argId := a } }

section

variable (s : State) (a : Word)

theorem State.finish_withSnapId (e : ErrCode) : (s.withSnapId a).finish e = (s.finish e).withSnapId a := rfl

theorem State.builtEntry_withSnapId : (s.withSnapId a).builtEntry = s.builtEntry := rfl

theorem State.buildCache_withSnapId : (s.withSnapId a).buildCache = s.buildCache.withSnapId a := by
  rw [State.buildCache, State.builtEntry_withSnapId]
  rfl

theorem checksOf_build_withSnapId : checksOf .build (s.withSnapId a) = checksOf .build s := rfl

end

/-- BUILD computes c_init for every identifier of its own range, so both its checks and its effect pass over ARG_ID. -/
theorem exec_build_withSnapId {s t : State} (a : Word) (h : exec .build s = .next t) :
    exec .build (s.withSnapId a) = .next (t.withSnapId a) := by
  obtain ⟨hbad, rfl⟩ | ⟨hbuild, hok, rfl⟩ | ⟨hbuild, _⟩ := exec_cases .build s t h
  · rw [exec_error _ _ (by rwa [checksOf_build_withSnapId]), checksOf_build_withSnapId, State.finish_withSnapId]
  · rw [exec_ok _ _ hbuild (by rwa [checksOf_build_withSnapId]), effectOf_build, effectOf_build,
      State.buildCache_withSnapId, State.finish_withSnapId]
  · cases hbuild

/-- Every command leaves the snapshot it runs on. -/
theorem exec_snap {i : Instr} {s t : State} (h : exec i s = .next t) : t.snap = s.snap := by
  obtain ⟨_, rfl⟩ | ⟨_, _, rfl⟩ | ⟨_, _, ⟨_, rfl⟩ | ⟨_, rfl⟩⟩ := exec_cases i s t h <;> simp

/-- Settles O35: the identifier is the first check of CINIT and GENID, and BUILD commutes with replacing it. -/
theorem identifierRangeIsChecked : Obligations.IdentifierRangeIsChecked := by
  unfold Obligations.IdentifierRangeIsChecked
  refine ⟨fun s i hi hid => ?_, fun s t a h => ?_⟩
  · have hillegal : s.snap.idIllegal = true := decide_eq_true hid
    rw [exec_of_idIllegal hi hillegal, State.finish]
  · have hbuild := exec_build_withSnapId a h
    rwa [State.withSnapId, State.withSnapId, exec_snap h] at hbuild

end Sys2Proof.Machine
end

section
/-! The host's writes to the seed cache (10_state.md R44, R45; 43_seed_cache.md R104): what a write to CACHE_ELEN or
CACHE_WIN does to CACHE, and how the access checks treat it. -/

namespace Sys2Proof.Machine

section

variable (s : State) (v : Word)

@[simp] theorem State.writeElen_cacheState : (s.writeElen v).cacheState = .empty := rfl

@[simp] theorem State.writeCacheWin_cacheState (w : Nat) : (s.writeCacheWin w v).cacheState = .empty := rfl

/-! CACHE after each write: only the selected entry is replaced. -/

theorem State.cacheEntry_writeElen (id : Nat) :
    (s.writeElen v).cacheEntry id =
      if id = s.cacheSel.toNat then { s.cacheEntry s.cacheSel.toNat with elen := v } else s.cacheEntry id :=
  s.cacheEntry_setCacheEntry _ _ id

theorem State.cacheEntry_writeCacheWin (w id : Nat) :
    (s.writeCacheWin w v).cacheEntry id =
      if id = s.cacheSel.toNat then
        { s.cacheEntry s.cacheSel.toNat with
          cells := (s.cacheEntry s.cacheSel.toNat).cells.store (32 * w) 32 v.toNat }
      else s.cacheEntry id :=
  s.cacheEntry_setCacheEntry _ _ id

theorem State.elen_writeElen (id : Nat) :
    (s.writeElen v).elen id = if id = s.cacheSel.toNat then v else s.elen id := by
  rw [State.elen, State.cacheEntry_writeElen]
  split <;> rfl

theorem State.cacheBit_writeElen (id i : Nat) : (s.writeElen v).cacheBit id i = s.cacheBit id i := by
  rw [State.cacheBit, State.cacheEntry_writeElen]
  split
  case isTrue hid => rw [hid]; rfl
  case isFalse => rfl

theorem State.elen_writeCacheWin (w id : Nat) : (s.writeCacheWin w v).elen id = s.elen id := by
  rw [State.elen, State.cacheEntry_writeCacheWin]
  split
  case isTrue hid => rw [hid]; rfl
  case isFalse => rfl

/-- The 32 cells of the written word take its bits, whatever they held (10_state.md R45). -/
theorem State.cacheBit_writeCacheWin (w id i : Nat) (hi : i < Config.maxBits) :
    (s.writeCacheWin w v).cacheBit id i =
      if id = s.cacheSel.toNat ∧ 32 * w ≤ i ∧ i < 32 * w + 32 then v.getLsbD (i - 32 * w) else s.cacheBit id i := by
  rw [State.cacheBit, State.cacheEntry_writeCacheWin]
  by_cases hid : id = s.cacheSel.toNat
  · rw [if_pos hid, State.entryBit, Cells.read_store _ _ _ _ _ _ hi, hid, BitVec.testBit_toNat]
    simp only [true_and]
    rfl
  · rw [if_neg hid, if_neg (fun h => hid h.1)]
    rfl

end

/-! The access checks (20_memory.md R54, R58). -/

section

variable {s : State} {r : Reg} (v : Word)

/-- An idle block refuses no write to a listed register but one of class RO. -/
theorem State.hostWrite_of_idle (hidle : s.busy = false) (hl : r.listed s.sizes = true) (hro : r.isRO = false) :
    s.hostWrite r.offset 4 v = s.writeEffect r v := by
  rw [State.hostWrite_offset s r v hl, hidle, hro, Bool.and_false, if_neg (by decide)]

/-- A busy block refuses every write to a register of class BR, listed at its sizes or not. -/
theorem State.hostWrite_of_busy (hbusy : s.busy = true) (hbr : r.isBR = true) :
    s.hostWrite r.offset 4 v = { s with accErr := true } := by
  cases hl : r.listed s.sizes
  case false => exact s.hostWrite_unlisted r v hl
  case true =>
    have hrefused : (r.isBR && s.busy) = true := by rw [hbr, hbusy, Bool.and_self]
    rw [State.hostWrite_offset s r v hl, if_pos (.inl hrefused), State.accessError]

theorem State.hostWrite_cacheElen_of_idle (hidle : s.busy = false) :
    s.hostWrite Reg.cacheElen.offset 4 v = s.writeElen v :=
  State.hostWrite_of_idle (r := .cacheElen) v hidle rfl rfl

theorem State.hostWrite_cacheWin_of_idle (w : Fin 2048) (hw : w.val < s.sizes.cacheWords) (hidle : s.busy = false) :
    s.hostWrite (Reg.cacheWin w).offset 4 v = s.writeCacheWin w.val v :=
  State.hostWrite_of_idle (r := .cacheWin w) v hidle (decide_eq_true hw) rfl

end

/-- Settles O38: an idle write is the register's effect on the selected entry; busy, both registers are of class BR. -/
theorem hostCacheWrites : Obligations.HostCacheWrites := by
  unfold Obligations.HostCacheWrites
  refine ⟨fun s w v hw hidle => ?_, fun s v hidle => ?_, fun s w v hbusy => ⟨?_, ?_⟩⟩
  · have hmax : s.sizes.cacheMaxBits ≤ Config.maxBits := s.sizes.cacheMaxBits_legal.2.2
    rw [State.hostWrite_cacheWin_of_idle v w hw hidle]
    refine ⟨rfl, s.elen_writeCacheWin v w.val, fun j hj => ?_, fun id i hi hout => ?_, rfl⟩
    · have hcell : 32 * w.val + j < Config.maxBits := by
        simp only [Config.maxBits]
        omega
      rw [State.cacheBit_writeCacheWin _ _ _ _ _ hcell, if_pos ⟨rfl, by omega, by omega⟩, Nat.add_sub_cancel_left]
    · rw [State.cacheBit_writeCacheWin _ _ _ _ _ (Nat.lt_of_lt_of_le hi hmax), if_neg (by omega)]
  · rw [State.hostWrite_cacheElen_of_idle v hidle]
    refine ⟨rfl, ?_, fun id hid => ?_, s.cacheBit_writeElen v, rfl⟩
    · rw [State.elen_writeElen, if_pos rfl]
    · rw [State.elen_writeElen, if_neg hid]
  · exact State.hostWrite_of_busy v hbusy rfl
  · exact State.hostWrite_of_busy v hbusy rfl

end Sys2Proof.Machine
end

section
/-! The life of CACHE_STATE (43_seed_cache.md R103): what each event makes of it, and which events leave it. -/

namespace Sys2Proof.Machine

/-! The commands that set it. -/

section

variable {s t : State}

/-- A BUILD that completes without error has had its effect (43_seed_cache.md R105). -/
theorem exec_build_succeeded (h : exec .build s = .next t) (herr : t.err = .noError) :
    t = s.buildCache.finish .noError := by
  obtain ⟨hbad, rfl⟩ | ⟨_, _, rfl⟩ | ⟨hbuild, _⟩ := exec_cases .build s t h
  · exact absurd herr hbad
  · rw [effectOf_build]
  · cases hbuild

/-- A COMMIT of a legal length answers by its comparison of the recorded lengths alone (43_seed_cache.md R106). -/
theorem exec_commit_cacheState (h : exec .commit s = .next t) (hlen : s.snap.argLen.toNat ≤ s.sizes.cacheMaxBits) :
    t.cacheState = if s.everyLenIs s.snap.argLen then .valid else .stale := by
  have hok : firstError (checksOf .commit s) = .noError := by
    simp [checksOf, commitChecks, firstError, Snapshot.cacheLenIllegal, hlen]
  obtain ⟨hbad, -⟩ | ⟨hcommit, -⟩ | ⟨-, -, ⟨heq, rfl⟩ | ⟨hne, rfl⟩⟩ := exec_cases .commit s t h
  · exact absurd hok hbad
  · exact absurd rfl hcommit
  · rw [heq]; rfl
  · rw [hne]; rfl

theorem exec_inval_cacheState (h : exec .inval s = .next t) : t.cacheState = .empty := by
  cases h
  rfl

end

/-! What changes it: three commands, three registers. -/

section

variable {s t : State}

theorem effectOf_cacheState {i : Instr} (hbuild : i ≠ .build) (hinval : i ≠ .inval) :
    (effectOf i s).cacheState = s.cacheState := by
  cases i
  case build => contradiction
  case inval => contradiction
  case genid => rw [effectOf_genid, State.generate_cacheState]
  case find => rw [effectOf_find, State.recover_cacheState]
  case report => rw [effectOf_report, State.identifiability_cacheState]
  all_goals rfl

theorem exec_cacheState_changed {i : Instr} (h : exec i s = .next t) (hne : t.cacheState ≠ s.cacheState) :
    i = .build ∨ i = .commit ∨ i = .inval := by
  obtain ⟨-, rfl⟩ | ⟨-, -, rfl⟩ | ⟨hcommit, -⟩ := exec_cases i s t h
  · exact absurd rfl hne
  · apply Decidable.byContradiction
    intro hother
    have hbuild : i ≠ .build := fun hi => hother (.inl hi)
    have hinval : i ≠ .inval := fun hi => hother (.inr (.inr hi))
    exact hne (effectOf_cacheState hbuild hinval)
  · exact .inr (.inl hcommit)

theorem engineTurn_cacheState_changed (h : engineTurn s = .next t) (hne : t.cacheState ≠ s.cacheState) :
    s.busy = true ∧
      (decode s.snap.cmd = .ok .build ∨ decode s.snap.cmd = .ok .commit ∨ decode s.snap.cmd = .ok .inval) := by
  cases hbusy : s.busy
  case false =>
    rw [engineTurn, hbusy] at h
    cases h
    exact absurd rfl hne
  case true =>
    rw [engineTurn_of_busy hbusy] at h
    cases hdec : decode s.snap.cmd with
    | illegal why =>
      rw [complete_of_illegal hdec] at h
      cases h
      exact absurd rfl hne
    | ok i =>
      rw [complete, hdec] at h
      simpa using exec_cacheState_changed h hne

theorem State.hostRead_cacheState (a : BitVec 16) (size : Nat) : (s.hostRead a size).cacheState = s.cacheState := by
  obtain ⟨-, heq⟩ | ⟨r, -, heq⟩ := s.hostRead_cases a size <;> rw [heq]
  rfl

theorem State.writeEffect_cacheState_changed {r : Reg} {v : Word}
    (hne : (s.writeEffect r v).cacheState ≠ s.cacheState) :
    (r = .ctrl ∧ v.getLsbD 31 = true) ∨ r = .cacheElen ∨ ∃ w, r = .cacheWin w := by
  cases r
  case ctrl =>
    cases hsrst : v.getLsbD 31
    case true => exact .inl ⟨rfl, rfl⟩
    case false =>
      refine absurd ?_ hne
      simp only [State.writeEffect, State.controlWrite, hsrst, Bool.false_eq_true, if_false, State.writeCtrl_cacheState]
  case cmd =>
    refine absurd ?_ hne
    rw [State.writeEffect, State.issue]
    split <;> rfl
  case cacheElen => exact .inr (.inl rfl)
  case cacheWin w => exact .inr (.inr ⟨w, rfl⟩)
  all_goals exact absurd rfl hne

theorem State.hostWrite_cacheState_changed {a : BitVec 16} {size : Nat} {v : Word}
    (hne : (s.hostWrite a size v).cacheState ≠ s.cacheState) :
    size = 4 ∧
      ((Reg.listedAt s.sizes a = some .ctrl ∧ v.getLsbD 31 = true) ∨
        (s.busy = false ∧
          (Reg.listedAt s.sizes a = some .cacheElen ∨ ∃ w, Reg.listedAt s.sizes a = some (.cacheWin w)))) := by
  obtain herr | ⟨r, hreach, -, heff⟩ := s.hostWrite_cases a size v
  · exact absurd (by rw [herr, State.accessError_cacheState]) hne
  obtain ⟨hlisted, hsize, hfree⟩ := s.reaches_some a size r hreach
  rw [heff] at hne
  refine ⟨hsize, ?_⟩
  rcases State.writeEffect_cacheState_changed hne with ⟨rfl, hsrst⟩ | rfl | ⟨w, rfl⟩
  · exact .inl ⟨hlisted, hsrst⟩
  · exact .inr ⟨by simpa [Reg.isBR] using hfree, .inl hlisted⟩
  · exact .inr ⟨by simpa [Reg.isBR] using hfree, .inr ⟨w, hlisted⟩⟩

/-- The causes of a change of CACHE_STATE, over one step: a hardware reset, a host write that resets or stores into the
cache, or the completion of BUILD, COMMIT or INVAL. -/
theorem step_cacheState_changed (h : step s = .next t) (hne : t.cacheState ≠ s.cacheState) :
    (∃ rest, s.pending = .hardReset :: rest) ∨
    (∃ a v rest, s.pending = .write a 4 v :: rest ∧
      ((Reg.listedAt s.sizes a = some .ctrl ∧ v.getLsbD 31 = true) ∨
        (s.busy = false ∧
          (Reg.listedAt s.sizes a = some .cacheElen ∨ ∃ w, Reg.listedAt s.sizes a = some (.cacheWin w))))) ∨
    (s.busy = true ∧ (s.pending = [] ∨ ∃ rest, s.pending = .engine :: rest) ∧
      (decode s.snap.cmd = .ok .build ∨ decode s.snap.cmd = .ok .commit ∨ decode s.snap.cmd = .ok .inval)) := by
  cases hpending : s.pending with
  | nil =>
    rw [step_nil s hpending] at h
    obtain ⟨hbusy, hdec⟩ := engineTurn_cacheState_changed h hne
    exact .inr (.inr ⟨hbusy, .inl rfl, hdec⟩)
  | cons e rest =>
    rw [step_cons s e rest hpending] at h
    cases e with
    | engine =>
      obtain ⟨hbusy, hdec⟩ := engineTurn_cacheState_changed h hne
      exact .inr (.inr ⟨hbusy, .inr ⟨rest, rfl⟩, hdec⟩)
    | read a size =>
      cases h
      exact absurd (State.hostRead_cacheState a size) hne
    | write a size v =>
      cases h
      obtain ⟨rfl, hcause⟩ := State.hostWrite_cacheState_changed hne
      exact .inr (.inl ⟨a, v, rest, rfl, hcause⟩)
    | hardReset => exact .inl ⟨rest, rfl⟩

end

/-- Settles O37: one lemma per event that sets CACHE_STATE, and the inversion of a step that changes it. -/
theorem cacheLifecycle : Obligations.CacheLifecycle := by
  unfold Obligations.CacheLifecycle
  refine ⟨fun s => ⟨rfl, rfl⟩, fun s t h herr => ?_, fun s t h hlen => ⟨fun hall => ?_, fun hdiff => ?_⟩,
    fun s t => exec_inval_cacheState, fun s v w hw hidle => ⟨?_, ?_⟩, fun s t => step_cacheState_changed⟩
  · rw [exec_build_succeeded h herr, State.finish_cacheState, State.buildCache_cacheState]
  · rw [exec_commit_cacheState h hlen, if_pos ((s.everyLenIs_iff _).2 hall)]
  · obtain ⟨id, hid, hother⟩ := hdiff
    rw [exec_commit_cacheState h hlen, if_neg fun heq => hother ((s.everyLenIs_iff _).1 heq id hid)]
  · rw [State.hostWrite_cacheElen_of_idle v hidle, State.writeElen_cacheState]
  · rw [State.hostWrite_cacheWin_of_idle v w hw hidle, State.writeCacheWin_cacheState]

end Sys2Proof.Machine
end

section
/-! Completion and its error code (60_exceptions.md R121 to R123): that every command completes, what a failed one leaves, the
first error of each command, and that no host access but a soft reset touches ERR. -/

namespace Sys2Proof.Machine

/-! Every command completes (60_exceptions.md R121). -/

theorem runChecked_total (checks : List (Bool × ErrCode)) (effect : State → State) (s : State) :
    ∃ t, runChecked checks effect s = .next t := by
  by_cases hok : firstError checks = .noError
  · exact ⟨_, runChecked_ok checks effect s hok⟩
  · exact ⟨_, runChecked_error checks effect s hok⟩

theorem execCommit_total (s : State) : ∃ t, execCommit s = .next t := by
  unfold execCommit
  split <;> exact ⟨_, rfl⟩

theorem exec_total (i : Instr) (s : State) : ∃ t, exec i s = .next t := by
  by_cases hi : i = .commit
  · rw [hi]
    exact execCommit_total s
  · rw [exec_eq i s hi]
    exact runChecked_total _ _ s

section

variable {s t : State}

/-- Each outcome of a command ends in `State.finish`, after an effect that leaves CTRL. -/
theorem exec_completed {i : Instr} (h : exec i s = .next t) :
    t.busy = false ∧ t.done = true ∧ t.ie = s.ie ∧ t.winEn = s.winEn := by
  obtain ⟨-, rfl⟩ | ⟨-, -, rfl⟩ | ⟨-, -, ⟨-, rfl⟩ | ⟨-, rfl⟩⟩ := exec_cases i s t h <;> simp

theorem complete_of_legal {i : Instr} (h : decode s.snap.cmd = .ok i) : complete s = exec i s := by
  simp [complete, h]

theorem complete_total (s : State) : ∃ t, complete s = .next t := by
  cases hdec : decode s.snap.cmd with
  | ok i => exact complete_of_legal hdec ▸ exec_total i s
  | illegal why => exact ⟨_, complete_of_illegal hdec⟩

theorem complete_completed (h : complete s = .next t) :
    t.busy = false ∧ t.done = true ∧ t.ie = s.ie ∧ t.winEn = s.winEn := by
  cases hdec : decode s.snap.cmd with
  | ok i => exact exec_completed (complete_of_legal hdec ▸ h)
  | illegal why =>
    rw [complete_of_illegal hdec] at h
    cases h
    exact ⟨rfl, rfl, rfl, rfl⟩

/-- The engine has no step while no command is in flight (70_reset_and_hazards.md R147). -/
theorem engineTurn_of_idle (h : s.busy = false) : engineTurn s = .next s := by
  simp [engineTurn, h]

end

/-! ERR under the host's accesses (60_exceptions.md R121, R123). -/

section

variable (s : State) (a : BitVec 16) (size : Nat) (v : Word)

theorem State.hostRead_err : (s.hostRead a size).err = s.err := by
  obtain ⟨-, heq⟩ | ⟨r, -, heq⟩ := s.hostRead_cases a size <;> rw [heq]
  rfl

theorem State.issue_err : (s.issue v).err = s.err := by
  cases hbusy : s.busy
  case true => rw [State.issue_of_busy v hbusy]
  case false => rw [State.issue_of_idle v hbusy, State.accept_err]

/-- Of the registers' effects only a soft reset reaches ERR. -/
theorem State.writeEffect_err (r : Reg) :
    (s.writeEffect r v).err = s.err ∨ (r = .ctrl ∧ v.getLsbD 31 = true) := by
  cases r
  case ctrl =>
    cases hsrst : v.getLsbD 31
    case true => exact .inr ⟨rfl, rfl⟩
    case false =>
      left
      simp only [State.writeEffect, State.controlWrite, hsrst, Bool.false_eq_true, if_false, State.writeCtrl_err]
  case cmd => exact .inl (s.issue_err v)
  all_goals exact .inl rfl

theorem State.hostWrite_err :
    (s.hostWrite a size v).err = s.err ∨ (Reg.listedAt s.sizes a = some .ctrl ∧ v.getLsbD 31 = true) := by
  obtain herr | ⟨r, hreach, -, heff⟩ := s.hostWrite_cases a size v
  · exact .inl (by rw [herr, State.accessError_err])
  obtain ⟨hlisted, -, -⟩ := s.reaches_some a size r hreach
  rw [heff]
  obtain hkeep | ⟨rfl, hsrst⟩ := s.writeEffect_err v r
  · exact .inl hkeep
  · exact .inr ⟨hlisted, hsrst⟩

/-- A write that is refused, or dropped because the register is of class RO (20_memory.md R54). -/
theorem State.hostWrite_of_refused
    (h : s.reaches a size = none ∨ ∃ r, s.reaches a size = some r ∧ r.isRO = true) :
    s.hostWrite a size v = s.accessError := by
  obtain hnone | ⟨r, hreach, hro⟩ := h
  · exact State.hostWrite_of_reaches_none v hnone
  · simp [State.hostWrite, hreach, hro]

end

/-- Settles O11: completion is total and ends in `State.finish`, which leaves an idle block; the host's accesses go by the
lemmas on ERR. -/
theorem everyCommandCompletes : Obligations.EveryCommandCompletes := by
  unfold Obligations.EveryCommandCompletes
  refine ⟨fun i s => ?_, fun s hbusy => ?_, State.accept_err, State.hostRead_err, State.hostWrite_err⟩
  · obtain ⟨t, ht⟩ := exec_total i s
    exact ⟨t, ht, exec_completed ht⟩
  · obtain ⟨t, ht⟩ := complete_total s
    obtain ⟨hidle, hdone, hie, hwinEn⟩ := complete_completed ht
    exact ⟨t, (engineTurn_of_busy hbusy).trans ht, hidle, hdone, hie, hwinEn, engineTurn_of_idle hidle,
      fun v => State.issue_of_idle v hidle⟩

/-! The operand checks as propositions (60_exceptions.md R123), beside `Snapshot.windowIllegal_iff`. -/

section

variable (S : Snapshot) (z : Config.Sizes)

theorem Snapshot.idIllegal_iff : S.idIllegal = true ↔ 65535 < S.argId.toNat := decide_eq_true_iff

theorem Snapshot.genLenIllegal_iff : S.genLenIllegal z = true ↔ z.genMaxBits < S.argLen.toNat := decide_eq_true_iff

theorem Snapshot.cacheLenIllegal_iff : S.cacheLenIllegal z = true ↔ z.cacheMaxBits < S.argLen.toNat := decide_eq_true_iff

theorem Snapshot.queryLenIllegal_iff :
    S.queryLenIllegal = true ↔ S.queryLen.toNat = 0 ∨ 64 < S.queryLen.toNat := by
  rw [Snapshot.queryLenIllegal, Bool.or_eq_true, decide_eq_true_iff, decide_eq_true_iff]

end

/-! The error code a command answers (60_exceptions.md R122, R123). -/

section

variable {s t : State} {i : Instr}

/-- For every command but COMMIT the completion's code is the first error of its checks (60_exceptions.md R123). -/
theorem exec_err (hi : i ≠ .commit) (h : exec i s = .next t) : t.err = firstError (checksOf i s) := by
  obtain ⟨-, rfl⟩ | ⟨-, hok, rfl⟩ | ⟨hcommit, -⟩ := exec_cases i s t h
  · rfl
  · rw [hok, State.finish_err]
  · exact absurd hcommit hi

/-- Only FIND and REPORT have a check that raises another error than INVALID_PARAMETER (60_exceptions.md R123). -/
theorem checksOf_invalidParameter (hfind : i ≠ .find) (hreport : i ≠ .report) :
    ∀ c ∈ checksOf i s, c.2 = .invalidParameter := by
  cases i
  case find => contradiction
  case report => contradiction
  all_goals simp [checksOf, advanceChecks, genChecks, cinitChecks, genidChecks, buildChecks, commitChecks]

/-- The commands that raise nothing but INVALID_PARAMETER: `bad` says in the spec's words that one of the checks fails. Their
order does not matter. -/
theorem exec_err_of_parameterChecks {bad : Prop} (hi : i ≠ .commit ∧ i ≠ .find ∧ i ≠ .report)
    (hbad : bad ↔ ∃ c ∈ checksOf i s, c.1 = true) (h : exec i s = .next t) :
    (bad → t.err = .invalidParameter) ∧ (¬bad → t.err = .noError) := by
  obtain ⟨hcommit, hfind, hreport⟩ := hi
  have hall : ∀ c ∈ checksOf i s, c.2 = .invalidParameter := checksOf_invalidParameter hfind hreport
  rw [exec_err hcommit h, hbad]
  refine ⟨?_, fun hgood => ?_⟩
  · rintro ⟨⟨failed, e⟩, hmem, rfl⟩
    exact firstError_of_forall_eq hall (hall _ hmem ▸ hmem)
  · refine (firstError_noError_iff _ fun c hc => by simp [hall c hc]).2 fun c hc => ?_
    exact Bool.eq_false_iff.2 fun hfailed => hgood ⟨c, hc, hfailed⟩

/-- COMMIT checks the length alone (43_seed_cache.md R106). -/
theorem firstError_checksOf_commit (s : State) : firstError (checksOf .commit s) =
    if s.sizes.cacheMaxBits < s.snap.argLen.toNat then .invalidParameter else .noError := by
  simp [checksOf, commitChecks, firstError, Snapshot.cacheLenIllegal_iff]

/-- COMMIT's CACHE_MISMATCH comes from its comparison of the recorded lengths, never from its check. -/
theorem firstError_checksOf_commit_ne (s : State) : firstError (checksOf .commit s) ≠ .cacheMismatch := by
  rw [firstError_checksOf_commit]
  split <;> decide

/-- COMMIT's code: the length, then the comparison of the recorded lengths (60_exceptions.md R123). -/
theorem exec_commit_err (h : exec .commit s = .next t) : t.err =
    if s.sizes.cacheMaxBits < s.snap.argLen.toNat then .invalidParameter
    else if s.everyLenIs s.snap.argLen then .noError else .cacheMismatch := by
  have hcheck := firstError_checksOf_commit s
  by_cases hlong : s.sizes.cacheMaxBits < s.snap.argLen.toNat
  · rw [if_pos hlong] at hcheck ⊢
    rw [exec_error .commit s (by simp [hcheck]), hcheck] at h
    cases h
    rfl
  · rw [if_neg hlong] at hcheck ⊢
    obtain ⟨hbad, -⟩ | ⟨hcommit, -⟩ | ⟨-, -, ⟨heq, rfl⟩ | ⟨hne, rfl⟩⟩ := exec_cases .commit s t h
    · exact absurd hcheck hbad
    · exact absurd rfl hcommit
    · rw [heq]; rfl
    · rw [hne]; rfl

/-- FIND's code: QUERY_LEN, then the state of the cache (60_exceptions.md R123). -/
theorem exec_find_err (h : exec .find s = .next t) : t.err =
    if s.snap.queryLen.toNat = 0 ∨ 64 < s.snap.queryLen.toNat then .invalidParameter
    else match s.cacheState with
      | .empty => .cacheUnavailable
      | .stale => .cacheMismatch
      | .valid => .noError := by
  rw [exec_err (by decide) h]
  cases hcache : s.cacheState <;>
    simp [checksOf, findChecks, firstError, Snapshot.queryLenIllegal_iff, hcache]

/-- REPORT's code: ARG_ID, the state of the cache, then CACHE_LEN (60_exceptions.md R123). -/
theorem exec_report_err (h : exec .report s = .next t) : t.err =
    if 65535 < s.snap.argId.toNat then .invalidParameter
    else match s.cacheState with
      | .empty => .cacheUnavailable
      | .stale => .cacheMismatch
      | .valid => if s.cacheLen.toNat < 64 then .invalidParameter else .noError := by
  rw [exec_err (by decide) h]
  cases hcache : s.cacheState <;>
    simp [checksOf, reportChecks, firstError, Snapshot.idIllegal_iff, Config.queryMax, hcache]

/-- Everything a failed command can do (60_exceptions.md R122): only its completion fields, or COMMIT's CACHE_MISMATCH. -/
theorem exec_failed_cases (h : exec i s = .next t) (herr : t.err ≠ .noError) :
    (¬(i = .commit ∧ t.err = .cacheMismatch) ∧ t = s.finish t.err) ∨
      (i = .commit ∧ t.err = .cacheMismatch ∧
        t = { s with cacheLen := s.snap.argLen, cacheState := .stale }.finish .cacheMismatch) := by
  obtain ⟨-, rfl⟩ | ⟨-, -, rfl⟩ | ⟨hcommit, -, ⟨-, rfl⟩ | ⟨-, rfl⟩⟩ := exec_cases i s t h
  · refine .inl ⟨?_, by rw [State.finish_err]⟩
    rintro ⟨rfl, hmismatch⟩
    exact firstError_checksOf_commit_ne s hmismatch
  · exact absurd rfl herr
  · exact absurd rfl herr
  · exact .inr ⟨hcommit, rfl, rfl⟩

end

/-- Settles O12: the two ways to fail exclude each other, and an illegal word raises its error on the state as it is. -/
theorem failedCommandsHaveNoEffect : Obligations.FailedCommandsHaveNoEffect := by
  unfold Obligations.FailedCommandsHaveNoEffect
  refine ⟨fun i s t h herr => ?_, fun s t why hill h => ?_⟩
  · obtain ⟨hother, ht⟩ | ⟨hcommit, hmismatch, ht⟩ := exec_failed_cases h herr
    · exact ⟨fun _ => ht, fun hi hm => absurd ⟨hi, hm⟩ hother⟩
    · exact ⟨fun hother => absurd ⟨hcommit, hmismatch⟩ hother, fun _ _ => ht⟩
  · rw [complete_of_illegal hill] at h
    cases h
    rfl

/-- Settles O13: the commands that raise INVALID_PARAMETER alone go by whether a check of theirs fails; COMMIT, FIND and
REPORT, which raise other errors too, by their codes in order. -/
theorem errorPriority : Obligations.ErrorPriority := by
  unfold Obligations.ErrorPriority
  refine ⟨fun s why => complete_of_illegal, fun s t => ?_, fun s a size v => ⟨s.hostRead_err a size, fun hnone => ?_,
    fun hrefused => ?_, fun hbusy => ?_⟩⟩
  · refine ⟨fun i hi h => ?_, fun i n hi => ?_, ?_, ?_, ?_, ?_, fun h => ?_, fun h => ?_, fun h => ?_⟩
    · obtain rfl | rfl | rfl := hi <;> exact exec_err (by decide) h
    · obtain rfl | rfl | rfl := hi <;>
        exact exec_err_of_parameterChecks (by simp) (by simp [checksOf, advanceChecks, Snapshot.windowIllegal_iff])
    · exact exec_err_of_parameterChecks (by decide)
        (by simp [checksOf, genChecks, Snapshot.genLenIllegal_iff, Snapshot.windowIllegal_iff])
    · exact exec_err_of_parameterChecks (by decide) (by simp [checksOf, cinitChecks, Snapshot.idIllegal_iff])
    · exact exec_err_of_parameterChecks (by decide)
        (by simp [checksOf, genidChecks, Snapshot.idIllegal_iff, Snapshot.genLenIllegal_iff, Snapshot.windowIllegal_iff])
    · exact exec_err_of_parameterChecks (by decide)
        (by simp [checksOf, buildChecks, Snapshot.cacheLenIllegal_iff, Snapshot.windowIllegal_iff])
    · rw [exec_commit_err h]
      refine ⟨fun hlong => if_pos hlong, fun hlen hdiff => ?_, fun hlen hall => ?_⟩
      · obtain ⟨id, hid, hother⟩ := hdiff
        rw [if_neg hlen, if_neg fun heq => hother ((s.everyLenIs_iff _).1 heq id hid)]
      · rw [if_neg hlen, if_pos ((s.everyLenIs_iff _).2 hall)]
    · rw [exec_find_err h]
      refine ⟨fun hbad => if_pos hbad, fun hgood => ?_⟩
      rw [if_neg hgood]
      cases s.cacheState <;> simp
    · rw [exec_report_err h]
      refine ⟨fun hbad => if_pos hbad, fun hgood => ?_⟩
      rw [if_neg hgood]
      cases s.cacheState <;> simp
  · rw [State.hostRead_of_reaches_none hnone]
  · rw [s.hostWrite_of_refused a size v hrefused]
    exact ⟨rfl, rfl⟩
  · rw [State.hostWrite_cmd, State.issue_of_busy v hbusy]
    exact ⟨rfl, rfl⟩

end Sys2Proof.Machine
end

section
/-! The quiescent block (70_reset_and_hazards.md R147). -/

namespace Sys2Proof.Machine

/-- Settles O9: with either list the step is the engine's turn, and an idle engine has no step. Taking the event off the
list leaves BUSY. -/
theorem quiescentBlockKeepsItsState : Obligations.QuiescentBlockKeepsItsState := by
  unfold Obligations.QuiescentBlockKeepsItsState
  intro s hidle
  refine ⟨fun hnone => ?_, fun rest hengine => ?_⟩
  · rw [step_nil s hnone, engineTurn_of_idle hidle]
  · rw [step_cons s .engine rest hengine]
    exact engineTurn_of_idle hidle

end Sys2Proof.Machine
end

section
/-! The encoder against the decoder (30_encoding.md R70 to R72, R78): an encoded command's three fields as numbers,
and the round trips in both directions. -/

namespace Sys2Proof

/-- A command has an encoding exactly if its count fits CNT (30_encoding.md R71). -/
theorem Instr.wf_iff (i : Instr) : i.wf = true ↔ i.count < 65536 := by
  cases i <;> simp [Instr.wf, Instr.countFits, Instr.count]

theorem Instr.opcode_lt (i : Instr) : i.opcode < 256 := by
  cases i <;> simp [Instr.opcode]

/-- An opcode and a count select the command they were taken from (30_encoding.md R72). -/
theorem commandOf_opcode (i : Instr) : commandOf i.opcode i.count = some i := by
  cases i <;> rfl

theorem Instr.count_of_not_takesCount {i : Instr} (h : ¬ i.takesCount) : i.count = 0 := by
  rw [count_of_commandOf (commandOf_opcode i), if_neg h]

/-- The word of a command whose count fits, as a number (30_encoding.md R70). -/
theorem encode_toNat {i : Instr} (h : i.count < 65536) : (encode i).toNat = 65536 * i.count + i.opcode := by
  have hop : i.opcode < 256 := i.opcode_lt
  have hword : i.count <<< 16 ||| i.opcode = 65536 * i.count + i.opcode := by
    rw [← Nat.shiftLeft_add_eq_or_of_lt (by omega : i.opcode < 2 ^ 16), Nat.shiftLeft_eq, Nat.mul_comm]
  rw [encode, hword, BitVec.toNat_ofNat, Nat.mod_eq_of_lt (by omega)]

/-- A legal word's two fields name its command, and its reserved field is 0 (30_encoding.md R73, R74). -/
theorem fields_of_decode {w : Word} {i : Instr} (h : decode w = .ok i) :
    i.opcode = w.toNat % 256 ∧ w.toNat / 256 % 256 = 0 ∧ i.count = w.toNat / 65536 := by
  have hlegal : ¬ ∃ why, decode w = .illegal why := by simp [h]
  rw [decode_illegal_iff] at hlegal
  obtain ⟨i', hok, hop, hcnt⟩ := decode_of_legal (w := w) (by omega) (by omega) (by omega)
  obtain rfl : i = i' := Decoded.ok.inj (h.symm.trans hok)
  exact ⟨hop, by omega, hcnt⟩

/-- Settles O4: the encoded fields are the command's own, so the decoder's three tests pass. -/
theorem decodeInvertsEncode : Obligations.DecodeInvertsEncode := by
  unfold Obligations.DecodeInvertsEncode
  intro i hwf
  have hcount : i.count < 65536 := i.wf_iff.1 hwf
  have hopcode : i.opcode < 256 := i.opcode_lt
  have hword := encode_toNat hcount
  have hop : (encode i).toNat % 256 = i.opcode := by omega
  have hrsv : (encode i).toNat / 256 % 256 = 0 := by omega
  have hcnt : (encode i).toNat / 65536 = i.count := by omega
  rw [decode_of_commandOf hrsv (by rw [hop, hcnt, commandOf_opcode]), if_neg]
  rintro ⟨htakes, hne⟩
  exact hne (hcnt.trans (Instr.count_of_not_takesCount htakes))

/-- Settles O5: the three fields of a legal word are the whole word. -/
theorem encodeInvertsDecode : Obligations.EncodeInvertsDecode := by
  unfold Obligations.EncodeInvertsDecode
  intro w i h
  obtain ⟨hop, hrsv, hcnt⟩ := fields_of_decode h
  have hlt : w.toNat < 2 ^ 32 := w.isLt
  have hcount : i.count < 65536 := by omega
  refine ⟨i.wf_iff.2 hcount, BitVec.eq_of_toNat_eq ?_⟩
  rw [encode_toNat hcount]
  omega

/-- Settles O1, by evaluation of the seven words. -/
theorem commandWordsDecode : Obligations.CommandWordsDecode := by
  unfold Obligations.CommandWordsDecode
  decide

end Sys2Proof
end

section
/-! The units along their advances: the zero state (40_lfsr.md R85), the bound on the windows (R82, R83), and the
commands XLOAD, ADV1, ADV2 and ADVJ (R86 to R89). -/

namespace Sys2Proof.Machine

/-! The zero state (40_lfsr.md R85). -/

section

variable {u : Lfsr}

/-- The physical array is all zeros exactly if the logical view is. -/
theorem Lfsr.phys_eq_zero_iff : u.phys = 0#31 ↔ ∀ j, j < 31 → u.seq j = false := by
  refine ⟨fun hzero j _ => by simp [Lfsr.seq, hzero], fun hview => BitVec.eq_of_getLsbD_eq fun k hk => ?_⟩
  rw [u.phys_getLsbD k hk, hview _ (Nat.mod_lt _ (by decide)), BitVec.getLsbD_zero]

/-- A zero view feeds back 0, at X2's taps. -/
theorem Lfsr.feedback_tapsX2_of_zero (h : u.phys = 0#31) : u.feedback tapsX2 = false := by
  have hview := Lfsr.phys_eq_zero_iff.1 h
  simp [Lfsr.feedback_tapsX2, hview]

theorem Lfsr.adv_tapsX2_zero (window : Option Nat) (h : u.phys = 0#31) : (u.adv tapsX2 window).phys = 0#31 := by
  rw [Lfsr.phys_eq_zero_iff] at *
  intro j hj
  rw [Lfsr.seq_adv _ _ _ _ hj]
  split
  · exact Lfsr.feedback_tapsX2_of_zero (Lfsr.phys_eq_zero_iff.2 h)
  · exact h _ (by omega)

theorem Lfsr.advN_tapsX2_zero (window : Option Nat) (m : Nat) (h : u.phys = 0#31) :
    (u.advN tapsX2 window m).phys = 0#31 := by
  induction m with
  | zero => exact h
  | succ m ih => rw [Lfsr.advN_succ_last]; exact Lfsr.adv_tapsX2_zero window ih

/-- X1's advance is undone by its taps: the bit that leaves the view is the feedback plus `seq(3)`, so a zero view
comes from a zero view only. -/
theorem Lfsr.adv_tapsX1_nonzero (window : Option Nat) (h : u.phys ≠ 0#31) : (u.adv tapsX1 window).phys ≠ 0#31 := by
  refine fun hadv => h (Lfsr.phys_eq_zero_iff.2 ?_)
  have hnext := Lfsr.phys_eq_zero_iff.1 hadv
  have htail (j : Nat) (hj : j < 30) : u.seq (j + 1) = false := by
    have hbit := hnext j (by omega)
    rwa [Lfsr.seq_adv _ _ _ _ (by omega), if_neg (by omega)] at hbit
  have hhead : u.seq 0 = false := by
    have hfeedback := hnext 30 (by omega)
    rwa [Lfsr.seq_adv _ _ _ _ (by omega), if_pos rfl, Lfsr.feedback_tapsX1, htail 2 (by omega), Bool.false_xor]
      at hfeedback
  intro j hj
  cases j with
  | zero => exact hhead
  | succ j => exact htail j (by omega)

theorem Lfsr.advN_tapsX1_nonzero (window : Option Nat) (m : Nat) (h : u.phys ≠ 0#31) :
    (u.advN tapsX1 window m).phys ≠ 0#31 := by
  induction m with
  | zero => exact h
  | succ m ih => rw [Lfsr.advN_succ_last]; exact Lfsr.adv_tapsX1_nonzero window ih

end

theorem loadX1_phys_nonzero : loadX1.phys ≠ 0#31 := by decide

theorem loadX2_phys_eq_zero {c : Word} (h : c.toNat % 2 ^ 31 = 0) : (loadX2 c).phys = 0#31 := by
  apply BitVec.eq_of_toNat_eq
  simpa [loadX2] using h

/-- Settles O30: advances keep the zero state of X2, whose feedback is 0, and cannot lead X1 to it. -/
theorem zeroStateIsFixedAndNeverReachedByX1 : Obligations.ZeroStateIsFixedAndNeverReachedByX1 := by
  unfold Obligations.ZeroStateIsFixedAndNeverReachedByX1
  refine ⟨fun c window m hc => ⟨?_, ?_⟩, fun window m => Lfsr.advN_tapsX1_nonzero window m loadX1_phys_nonzero⟩
  · exact Lfsr.advN_tapsX2_zero window m (loadX2_phys_eq_zero hc)
  · cases m with
    | zero => rfl
    | succ m =>
      rw [Lfsr.advN_succ_last, Lfsr.adv_last]
      exact Lfsr.feedback_tapsX2_of_zero (Lfsr.advN_tapsX2_zero window m (loadX2_phys_eq_zero hc))

/-! The windows under advances (40_lfsr.md R82 to R84). -/

/-- A window within a bound stays within it if the capacity in force does. -/
theorem Lfsr.advN_win_length_le {taps : List Nat} {window : Option Nat} {u : Lfsr} {bound : Nat} (n : Nat)
    (hwin : u.win.length ≤ bound) (hcap : ∀ K, window = some K → K ≤ bound) :
    (u.advN taps window n).win.length ≤ bound := by
  induction n with
  | zero => exact hwin
  | succ n ih =>
    rw [Lfsr.advN_succ_last]
    cases window with
    | none => rwa [Lfsr.adv_win_none]
    | some K =>
      rw [Lfsr.adv_win_some, length_winpush]
      exact Nat.le_trans (Nat.min_le_right _ _) (hcap K rfl)

/-- With recording, the window after some advances holds the last of its bits and the bits of a sequence that follows
the unit's feedback. -/
theorem Lfsr.advN_win_of_feedback {taps : List Nat} {K : Nat} {u : Lfsr} {x : Nat → Bool} {n : Nat} (hn : 0 < n)
    (hfeedback : ∀ m, (u.advN taps (some K) m).feedback taps = x (m + 31)) :
    (u.advN taps (some K) n).win =
      (u.win ++ (List.range n).map fun m => x (m + 31)).drop
        ((u.win ++ (List.range n).map fun m => x (m + 31)).length - K) := by
  have hbits : (List.range n).map (fun m => x (m + 31)) ≠ [] := by simp; omega
  rw [Lfsr.advN_win_some, ← foldl_winpush _ _ _ hbits]
  simp only [hfeedback]

section

variable {S : Snapshot} {z : Config.Sizes}

theorem Snapshot.windowIllegal_eq_false_iff : S.windowIllegal z = false ↔ S.WindowLegal z := by
  rw [← Bool.not_eq_true, S.windowIllegal_iff z, Snapshot.WindowLegal, not_and, Decidable.not_not]

theorem Snapshot.window_of_on (h : S.winEn = true) : S.window = some S.winCap.toNat :=
  if_pos h

/-- With a legal capacity, recording keeps the windows within the largest one. -/
theorem Snapshot.WindowLegal.window_le (h : S.WindowLegal z) (K : Nat) (hK : S.window = some K) : K ≤ z.winCapMax := by
  cases hen : S.winEn
  case false => rw [Snapshot.window_of_off hen] at hK; cases hK
  case true =>
    rw [Snapshot.window_of_on hen] at hK
    cases hK
    exact (h hen).2

/-- What `n` advances leave, along a sequence `x` that continues the unit's view by its own feedback: the shape of
ADV1's and ADV2's description (40_lfsr.md R87, R88). -/
theorem Lfsr.advN_course {taps : List Nat} {u : Lfsr} {x : Nat → Bool} (n : Nat)
    (hfollows : ∀ m, (∀ j, j < 31 → (u.advN taps S.window m).seq j = x (m + j)) ∧
      (u.advN taps S.window m).feedback taps = x (m + 31)) :
    (∀ j, j < 31 → (u.advN taps S.window n).seq j = x (n + j)) ∧
      (0 < n → (u.advN taps S.window n).last = x (n + 30)) ∧
      (S.winEn = true → 0 < n →
        (u.advN taps S.window n).win =
          (u.win ++ (List.range n).map fun m => x (m + 31)).drop
            ((u.win ++ (List.range n).map fun m => x (m + 31)).length - S.winCap.toNat)) := by
  refine ⟨(hfollows n).1, fun hn => ?_, fun hen hn => ?_⟩
  · have hplace : n - 1 + 31 = n + 30 := by omega
    rw [Lfsr.advN_last _ _ _ _ hn, (hfollows (n - 1)).2, hplace]
  · rw [Snapshot.window_of_on hen] at hfollows ⊢
    exact Lfsr.advN_win_of_feedback hn fun m => (hfollows m).2

end

/-! The commands of the units (40_lfsr.md R86 to R89). -/

section

variable {s : State} (n : Nat) (h : s.snap.WindowLegal s.sizes)

/-- The one check of ADV1, ADV2 and ADVJ (40_lfsr.md R84). -/
theorem firstError_advanceChecks (h : s.snap.WindowLegal s.sizes) :
    firstError (advanceChecks s.sizes s.snap) = .noError := by
  simp [advanceChecks, firstError, Snapshot.windowIllegal_eq_false_iff.2 h]

include h

theorem exec_adv1_of_windowLegal :
    exec (.adv1 n) s = .next ({ s with x1 := s.x1.advN tapsX1 s.snap.window n }.finish .noError) :=
  exec_ok (.adv1 n) s (by simp) (firstError_advanceChecks h)

theorem exec_adv2_of_windowLegal :
    exec (.adv2 n) s = .next ({ s with x2 := s.x2.advN tapsX2 s.snap.window n }.finish .noError) :=
  exec_ok (.adv2 n) s (by simp) (firstError_advanceChecks h)

theorem exec_advj_of_windowLegal :
    exec (.advj n) s = .next ({ s with
      x1 := s.x1.advN tapsX1 s.snap.window n, x2 := s.x2.advN tapsX2 s.snap.window n }.finish .noError) :=
  exec_ok (.advj n) s (by simp) (firstError_advanceChecks h)

end

/-- The window of a unit is left by advances with recording off (40_lfsr.md R82). -/
theorem Lfsr.advN_win_of_off {S : Snapshot} (taps : List Nat) (u : Lfsr) (n : Nat) (h : S.winEn = false) :
    (u.advN taps S.window n).win = u.win := by
  rw [Snapshot.window_of_off h, Lfsr.advN_win_none]

/-- Settles O16: the effect is `n` advances of X1, which follow every continuation of its view by its recurrence. -/
theorem adv1AdvancesX1 : Obligations.Adv1AdvancesX1 := by
  unfold Obligations.Adv1AdvancesX1
  intro n s h
  refine ⟨_, exec_adv1_of_windowLegal n h, ⟨rfl, rfl, rfl⟩, Lfsr.advN_cnt _ _ _ n, Lfsr.advN_ptr _ _ _ n, ?_,
    Lfsr.advN_win_of_off tapsX1 s.x1 n, fun x h0 hr => ?_, rfl⟩
  · rintro rfl
    rfl
  · exact Lfsr.advN_course n (Lfsr.advN_tapsX1_follows s.x1 s.snap.window x h0 hr)

/-- Settles O17: as for X1, with X2's recurrence. -/
theorem adv2AdvancesX2 : Obligations.Adv2AdvancesX2 := by
  unfold Obligations.Adv2AdvancesX2
  intro n s h
  refine ⟨_, exec_adv2_of_windowLegal n h, ⟨rfl, rfl, rfl⟩, Lfsr.advN_cnt _ _ _ n, Lfsr.advN_ptr _ _ _ n, ?_,
    Lfsr.advN_win_of_off tapsX2 s.x2 n, fun x h0 hr => ?_, rfl⟩
  · rintro rfl
    rfl
  · exact Lfsr.advN_course n (Lfsr.advN_tapsX2_follows s.x2 s.snap.window x h0 hr)

/-- Bit 2 of RES_BITS is the XOR of the last bits (10_state.md R41). -/
theorem State.resBits_getLsbD_2 (s : State) : s.resBits.getLsbD 2 = (s.x1.last ^^ s.x2.last) := by
  simp [State.resBits]

/-- Settles O18: the three commands pass the same check, and ADVJ's effect is both others' effects. -/
theorem advjAdvancesBoth : Obligations.AdvjAdvancesBoth := by
  unfold Obligations.AdvjAdvancesBoth
  intro n s h
  refine ⟨_, _, _, exec_advj_of_windowLegal n h, exec_adv1_of_windowLegal n h, exec_adv2_of_windowLegal n h,
    ⟨rfl, rfl, rfl⟩, rfl, rfl, State.resBits_getLsbD_2 _, Lfsr.advN_cnt _ _ _ n, Lfsr.advN_cnt _ _ _ n, rfl⟩

theorem exec_xload (s : State) :
    exec .xload s = .next ({ s with x1 := loadX1, x2 := loadX2 s.snap.argCinit }.finish .noError) := rfl

theorem State.resBits_of_last_false {s : State} (h1 : s.x1.last = false) (h2 : s.x2.last = false) :
    s.resBits = 0#32 := by
  rw [State.resBits, h1, h2]
  decide

/-- Settles O15: freshly loaded units show their seeds, and the rest of a load is constant. -/
theorem xloadLoadsBothRegisters : Obligations.XloadLoadsBothRegisters := by
  unfold Obligations.XloadLoadsBothRegisters
  intro s
  exact ⟨_, exec_xload s, ⟨rfl, rfl, rfl⟩, fun j hj => ⟨loadX1_seq j hj, loadX2_seq _ j hj⟩, rfl, rfl, rfl, rfl,
    rfl, rfl, rfl, rfl, State.resBits_of_last_false rfl rfl, rfl⟩

end Sys2Proof.Machine
end

section
/-! The generating commands GEN, CINIT, GENID and BUILD (41_gold.md R95, 42_cinit.md R100, R101, 43_seed_cache.md
R105): what each leaves when its operands are legal, and the lock-step of the units. -/

namespace Sys2Proof.Machine

/-! A run's bits and the units it leaves (41_gold.md R91, R92). -/

theorem goldrun_getD (window : Option Nat) (c : Word) {L i : Nat} (hi : i < L) :
    (goldrun window c L).bits.getD i false = goldRef c i := by
  simp [goldrun_bits, hi]

/-- A run advances both units equally often from counts of 0. -/
theorem goldrun_cnt (window : Option Nat) (c : Word) (L : Nat) :
    (goldrun window c L).x1.cnt = BitVec.ofNat 32 (1569 + L) ∧
      (goldrun window c L).x2.cnt = BitVec.ofNat 32 (1569 + L) := by
  rw [goldrun_x1, goldrun_x2, Lfsr.advN_cnt, Lfsr.advN_cnt]
  exact ⟨BitVec.zero_add _, BitVec.zero_add _⟩

/-! OUTBUF after a run of a legal length. -/

section

variable {s : State} (c : Word) {i : Nat}

theorem lt_maxBits_of_lt_genMaxBits {z : Config.Sizes} {i : Nat} (h : i < z.genMaxBits) :
    i < Config.maxBits :=
  Nat.lt_of_lt_of_le h z.genMaxBits_legal.2.2

theorem lt_maxBits_of_lt_cacheMaxBits {z : Config.Sizes} {i : Nat} (h : i < z.cacheMaxBits) :
    i < Config.maxBits :=
  Nat.lt_of_lt_of_le h z.cacheMaxBits_legal.2.2

theorem State.outBit_generate_of_lt (hlen : s.snap.argLen.toNat ≤ s.sizes.genMaxBits) (hi : i < s.snap.argLen.toNat) :
    (s.generate c).outBit i = goldRef c i := by
  have hcell := lt_maxBits_of_lt_genMaxBits (Nat.lt_of_lt_of_le hi hlen)
  rw [State.outBit_generate _ _ _ hcell, if_pos hi, goldrun_getD _ _ hi]

theorem State.outBit_generate_of_ge (hi : s.snap.argLen.toNat ≤ i) (hmax : i < s.sizes.genMaxBits) :
    (s.generate c).outBit i = s.outBit i := by
  rw [State.outBit_generate _ _ _ (lt_maxBits_of_lt_genMaxBits hmax), if_neg (Nat.not_lt.2 hi)]

end

/-! GEN (41_gold.md R95). -/

section

variable {s : State} (hlen : s.snap.argLen.toNat ≤ s.sizes.genMaxBits) (hwin : s.snap.WindowLegal s.sizes)

include hlen

theorem Snapshot.genLenIllegal_of_le : s.snap.genLenIllegal s.sizes = false := by
  simpa [Snapshot.genLenIllegal] using hlen

include hwin

theorem exec_gen_of_legal : exec .gen s = .next ((s.generate s.snap.argCinit).finish .noError) := by
  refine exec_ok .gen s (by decide) ?_
  simp [checksOf, genChecks, firstError, Snapshot.genLenIllegal_of_le hlen, Snapshot.windowIllegal_eq_false_iff.2 hwin]

end

/-- Settles O19: the effect is a run from ARG_CINIT, whose bits are the closed form. -/
theorem genWritesGoldSequence : Obligations.GenWritesGoldSequence := by
  unfold Obligations.GenWritesGoldSequence
  intro s hlen hwin L c
  have hL : L ≤ 65536 := Nat.le_trans hlen s.sizes.genMaxBits_legal.2.2
  have hcnt : (BitVec.ofNat 32 (1569 + L)).toNat = 1569 + L := by
    rw [BitVec.toNat_ofNat]
    omega
  obtain ⟨hcnt1, hcnt2⟩ := goldrun_cnt s.snap.window c L
  refine ⟨_, exec_gen_of_legal hlen hwin, ⟨rfl, rfl, rfl⟩, rfl, fun i hi => State.outBit_generate_of_lt c hlen hi,
    fun i hi hmax => State.outBit_generate_of_ge c hi hmax, goldrun_x1 _ c L, goldrun_x2 _ c L, ?_, ?_, ?_, rfl⟩
  · exact (congrArg BitVec.toNat hcnt1).trans hcnt
  · exact (congrArg BitVec.toNat hcnt2).trans hcnt
  · rw [State.finish_x1, State.generate_x1, goldrun_x1, Lfsr.advN_ptr]
    exact congrArg (· % 31) (Nat.zero_add _)

/-! CINIT and GENID (42_cinit.md R100, R101). -/

section

variable {s : State} (hid : s.snap.argId.toNat ≤ 65535)

include hid

theorem Snapshot.idIllegal_of_le : s.snap.idIllegal = false := by
  simpa [Snapshot.idIllegal] using hid

theorem exec_cinit_of_legal :
    exec .cinit s = .next ({ s with resCinit := s.snap.cinitOf s.snap.argId }.finish .noError) := by
  rw [exec_ok .cinit s (by decide) (by simp [checksOf, cinitChecks, firstError, Snapshot.idIllegal_of_le hid]),
    effectOf_cinit]

theorem exec_genid_of_legal (hlen : s.snap.argLen.toNat ≤ s.sizes.genMaxBits) (hwin : s.snap.WindowLegal s.sizes) :
    exec .genid s =
      .next (({ s with resCinit := s.snap.cinitOf s.snap.argId }.generate (s.snap.cinitOf s.snap.argId)).finish
        .noError) := by
  rw [exec_ok .genid s (by decide) ?_, effectOf_genid]
  simp [checksOf, genidChecks, firstError, Snapshot.idIllegal_of_le hid, Snapshot.genLenIllegal_of_le hlen,
    Snapshot.windowIllegal_eq_false_iff.2 hwin]

end

/-- Settles O20: the realisation is the formula. -/
theorem cinitComputesFormula : Obligations.CinitComputesFormula := by
  unfold Obligations.CinitComputesFormula
  intro s hid
  exact ⟨_, exec_cinit_of_legal hid, ⟨rfl, rfl, rfl⟩, cinitFn_eq_cinitFormula _ _ _ _, rfl⟩

/-- Settles O21: CINIT's effect, and then GEN's from the value it left. -/
theorem genidGeneratesFromFormula : Obligations.GenidGeneratesFromFormula := by
  unfold Obligations.GenidGeneratesFromFormula
  intro s hid hlen hwin L
  exact ⟨_, exec_genid_of_legal hid hlen hwin, ⟨rfl, rfl, rfl⟩, cinitFn_eq_cinitFormula _ _ _ _, rfl,
    fun i hi => State.outBit_generate_of_lt (s := { s with resCinit := _ }) _ hlen hi,
    fun i hi hmax => State.outBit_generate_of_ge (s := { s with resCinit := _ }) _ hi hmax, goldrun_x1 _ _ L,
    goldrun_x2 _ _ L, rfl⟩

/-! BUILD (43_seed_cache.md R105). -/

section

variable {s : State} (hlen : s.snap.argLen.toNat ≤ s.sizes.cacheMaxBits)

include hlen

theorem Snapshot.cacheLenIllegal_of_le : s.snap.cacheLenIllegal s.sizes = false := by
  simpa [Snapshot.cacheLenIllegal] using hlen

theorem exec_build_of_legal (hwin : s.snap.WindowLegal s.sizes) :
    exec .build s = .next (s.buildCache.finish .noError) := by
  rw [exec_ok .build s (by decide) ?_, effectOf_build]
  simp [checksOf, buildChecks, firstError, Snapshot.cacheLenIllegal_of_le hlen,
    Snapshot.windowIllegal_eq_false_iff.2 hwin]

theorem State.cacheBit_buildCache_of_lt {id i : Nat} (hid : id < Config.numIds) (hi : i < s.snap.argLen.toNat) :
    s.buildCache.cacheBit id i = goldRef (s.snap.cinitOf (BitVec.ofNat 32 id)) i := by
  have hcell := lt_maxBits_of_lt_cacheMaxBits (Nat.lt_of_lt_of_le hi hlen)
  rw [State.cacheBit_buildCache _ _ _ hid hcell, if_pos hi]
  exact goldrun_getD _ _ hi

omit hlen in
theorem State.cacheBit_buildCache_of_ge {id i : Nat} (hid : id < Config.numIds) (hi : s.snap.argLen.toNat ≤ i)
    (hmax : i < s.sizes.cacheMaxBits) : s.buildCache.cacheBit id i = s.cacheBit id i := by
  rw [State.cacheBit_buildCache _ _ _ hid (lt_maxBits_of_lt_cacheMaxBits hmax),
    if_neg (Nat.not_lt.2 hi)]

end

/-- Settles O22: every entry of the built cache by the rules for its length and bits, and the units by the run for the
last identifier. -/
theorem buildFillsEveryEntry : Obligations.BuildFillsEveryEntry := by
  unfold Obligations.BuildFillsEveryEntry
  intro s hlen hwin N c
  refine ⟨_, exec_build_of_legal hlen hwin, ⟨rfl, rfl, rfl⟩, rfl, rfl, fun id hid => ⟨s.elen_buildCache id hid, ?_, ?_⟩,
    goldrun_x1 _ _ N, goldrun_x2 _ _ N, rfl⟩
  · exact fun i hi => State.cacheBit_buildCache_of_lt hlen hid hi
  · exact fun i hi hmax => State.cacheBit_buildCache_of_ge hid hi hmax

/-! The lock-step (70_reset_and_hazards.md section 2). -/

/-- Settles O32: each generating command leaves the units of one run, and the last bits of equally often advanced
units past the warm-up are one place of both sequences. -/
theorem lockStepGivesGoldBits : Obligations.LockStepGivesGoldBits := by
  unfold Obligations.LockStepGivesGoldBits
  refine ⟨fun s t i hi h herr => ?_, fun window c n => ?_⟩
  · have hsame (window : Option Nat) (c : Word) (L : Nat) :
        (goldrun window c L).x1.cnt = (goldrun window c L).x2.cnt := by
      rw [(goldrun_cnt window c L).1, (goldrun_cnt window c L).2]
    obtain ⟨hbad, rfl⟩ | ⟨-, -, rfl⟩ | ⟨rfl, -⟩ := exec_cases i s t h
    · exact absurd herr hbad
    · obtain rfl | rfl | rfl := hi
      · exact hsame _ _ _
      · exact hsame _ _ _
      · exact hsame _ _ _
    · simp at hi
  · have hplace : 1569 + n + 31 = n + Config.nc := by
      simp only [Config.nc]
      omega
    rw [Nat.add_right_comm 1569 1 n, loadX1_advN_succ_last, loadX2_advN_succ_last, hplace, goldRef]

end Sys2Proof.Machine
end

section
/-! The step: that it always answers (93_implementation_defined.md section 1), which command or access it performs
(30_encoding.md section 3, 20_memory.md section 4), that every schedule ends quiescent (60_exceptions.md section 1)
and that the configuration stays (00_scope.md R6). -/

namespace Sys2Proof.Machine

/-! Every event and every step answers a next state. -/

theorem engineTurn_total (s : State) : ∃ t, engineTurn s = .next t := by
  cases hbusy : s.busy with
  | true => exact engineTurn_of_busy hbusy ▸ complete_total s
  | false => exact ⟨s, engineTurn_of_idle hbusy⟩

theorem runEvent_total (e : Event) (s : State) : ∃ t, runEvent e s = .next t := by
  cases e with
  | engine => exact engineTurn_total s
  | read a size => exact ⟨_, rfl⟩
  | write a size v => exact ⟨_, rfl⟩
  | hardReset => exact ⟨_, rfl⟩

/-- Settles O8: a step is an event or the engine's turn, and both always answer. -/
theorem everyStepIsSafe : Obligations.EveryStepIsSafe := by
  unfold Obligations.EveryStepIsSafe SafeStep
  intro s
  cases hpending : s.pending with
  | nil => exact step_nil s hpending ▸ engineTurn_total s
  | cons e rest => exact step_cons s e rest hpending ▸ runEvent_total e _

/-! What a step performs. -/

section

variable {s : State} {i : Instr}

theorem engineTurn_of_legal (hbusy : s.busy = true) (hdec : decode s.snap.cmd = .ok i) : engineTurn s = exec i s := by
  rw [engineTurn_of_busy hbusy, complete_of_legal hdec]

/-- The placed word is accepted and the engine's turn comes first (log 13). -/
theorem step_withFetchWord {w : Word} (hdec : decode w = .ok i) :
    step (s.withFetchWord 32 w.toNat) = exec i (s.accept w) := by
  have hword : BitVec.ofNat 32 (w.toNat % 2 ^ 32) = w := by
    rw [Nat.mod_eq_of_lt w.isLt, BitVec.ofNat_toNat, BitVec.setWidth_eq]
  rw [State.withFetchWord, hword, step_cons (s.placeCommand w) .engine s.pending rfl]
  exact engineTurn_of_legal (s := s.accept w) rfl hdec

end

/-- Settles O6: with either list the step is the engine's turn, which runs the decoded command of a busy block. -/
theorem stepRunsDecodedCommand : Obligations.StepRunsDecodedCommand := by
  unfold Obligations.StepRunsDecodedCommand
  refine ⟨fun s i hbusy hdec hpending => ?_, fun s i rest hbusy hdec hpending => ?_, fun s i w _ => step_withFetchWord⟩
  · rw [step_nil s hpending, engineTurn_of_legal hbusy hdec]
  · rw [step_cons s _ rest hpending]
    exact engineTurn_of_legal (s := { s with pending := rest }) hbusy hdec

/-- Settles O7: a step performs the next event, whatever it is. -/
theorem stepPerformsHostEvents : Obligations.StepPerformsHostEvents := by
  unfold Obligations.StepPerformsHostEvents
  exact fun s rest => ⟨fun a size => step_cons s _ rest, fun a size v => step_cons s _ rest, step_cons s _ rest⟩

/-! Progress: the schedule runs down, and then the engine has its turn (60_exceptions.md R126, log 2). -/

theorem engineTurn_idle {s t : State} (h : engineTurn s = .next t) : t.busy = false := by
  cases hbusy : s.busy with
  | true =>
    obtain ⟨hidle, -⟩ := complete_completed (engineTurn_of_busy hbusy ▸ h)
    exact hidle
  | false =>
    rw [engineTurn_of_idle hbusy] at h
    cases h
    exact hbusy

/-- Settles O10, by induction on the events to come: each step takes one, and the last step is the engine's turn. -/
theorem everyScheduleEndsQuiescent : Obligations.EveryScheduleEndsQuiescent := by
  unfold Obligations.EveryScheduleEndsQuiescent
  intro s
  induction hpending : s.pending generalizing s with
  | nil =>
    obtain ⟨t, ht⟩ := engineTurn_total s
    refine ⟨t, run_succ 0 s t (step_nil s hpending ▸ ht), engineTurn_idle ht, ?_⟩
    rw [engineTurn_pending s t ht, hpending]
  | cons e rest ih =>
    obtain ⟨u, hu⟩ := runEvent_total e { s with pending := rest }
    obtain ⟨t, hrun, hquiet⟩ := ih u (runEvent_pending e _ u hu)
    exact ⟨t, (run_succ _ s u (step_cons s e rest hpending ▸ hu)).trans hrun, hquiet⟩

/-- Everything the engine's turn can do: nothing, complete an illegal word, or run a command. -/
theorem engineTurn_cases {s t : State} (h : engineTurn s = .next t) :
    t = s ∨ t = s.finish .illegalCommand ∨ ∃ i, exec i s = .next t := by
  cases hbusy : s.busy with
  | false =>
    rw [engineTurn_of_idle hbusy] at h
    exact .inl (Host.Outcome.next.inj h).symm
  | true =>
    rw [engineTurn_of_busy hbusy] at h
    cases hdec : decode s.snap.cmd with
    | ok i => exact .inr (.inr ⟨i, complete_of_legal hdec ▸ h⟩)
    | illegal why =>
      rw [complete_of_illegal hdec] at h
      exact .inr (.inl (Host.Outcome.next.inj h).symm)

/-- Everything a step can do: the engine's turn with no event to come, or the next event. -/
theorem step_cases {s t : State} (h : step s = .next t) :
    engineTurn s = .next t ∨ ∃ e rest, runEvent e { s with pending := rest } = .next t := by
  cases hpending : s.pending with
  | nil => exact .inl (step_nil s hpending ▸ h)
  | cons e rest => exact .inr ⟨e, rest, step_cons s e rest hpending ▸ h⟩

/-! The configuration (00_scope.md R6, R7). -/

theorem engineTurn_sizes {s t : State} (h : engineTurn s = .next t) : t.sizes = s.sizes := by
  obtain rfl | rfl | ⟨i, hexec⟩ := engineTurn_cases h
  · rfl
  · rfl
  · exact exec_sizes i s t hexec

theorem runEvent_sizes {e : Event} {s t : State} (h : runEvent e s = .next t) : t.sizes = s.sizes := by
  cases e with
  | engine => exact engineTurn_sizes h
  | read a size =>
    cases h
    obtain ⟨-, heq⟩ | ⟨r, -, heq⟩ := s.hostRead_cases a size <;> rw [heq]
    rfl
  | write a size v =>
    cases h
    obtain heq | ⟨r, -, -, heq⟩ := s.hostWrite_cases a size v <;> rw [heq]
    · rfl
    · exact State.writeEffect_sizes s r v
  | hardReset =>
    cases h
    rfl

/-- Settles O60: no event changes the sizes. -/
theorem stepKeepsConfiguration : Obligations.StepKeepsConfiguration := by
  unfold Obligations.StepKeepsConfiguration
  intro s t h
  obtain hturn | ⟨e, rest, hevent⟩ := step_cases h
  · exact engineTurn_sizes hturn
  · exact runEvent_sizes (s := { s with pending := rest }) hevent

end Sys2Proof.Machine
end

section
/-! The invariant of the block: it holds after a reset, and each command, host access and reset keeps it. Each lemma
names the fields its operation touches; `{ h with … }` takes the others over. -/

namespace Sys2Proof.Machine

/-! Bit cells after a store. -/

section

variable {n : Nat} (c : Cells n) {len i : Nat} (v : Nat)

/-- A store from cell 0 on specifies its own cells and leaves specified what was. -/
theorem Cells.known_store_zero (hi : i < n) :
    (c.store 0 len v).known.getLsbD i = (c.known.getLsbD i || decide (i < len)) := by
  simp [Cells.known_store c 0 len v i hi]

/-- A store specifies no cell past its own. -/
theorem Cells.known_store_of_ge {lo : Nat} (hi : lo + len ≤ i) (hold : c.known.getLsbD i = false) :
    (c.store lo len v).known.getLsbD i = false := by
  by_cases hn : i < n
  · rw [Cells.known_store c lo len v i hn, hold, Bool.false_or, Bool.and_eq_false_iff]
    exact .inr (decide_eq_false (Nat.not_lt.2 hi))
  · exact BitVec.getLsbD_of_ge _ _ (Nat.le_of_not_lt hn)

/-- A forget specifies no cell. -/
theorem Cells.known_forget_of_unknown (hold : c.known.getLsbD i = false) :
    (c.forget len).known.getLsbD i = false := by
  simp [Cells.forget, hold]

end

/-! The units that a run leaves. -/

section

variable {S : Snapshot} {z : Config.Sizes} (c : Word) (L : Nat)

theorem goldrun_x1_nonzero (window : Option Nat) : (goldrun window c L).x1.phys ≠ 0#31 := by
  rw [goldrun_x1]
  exact Lfsr.advN_tapsX1_nonzero _ _ loadX1_phys_nonzero

theorem goldrun_windows_le (hwin : S.WindowLegal z) :
    (goldrun S.window c L).x1.win.length ≤ z.winCapMax ∧ (goldrun S.window c L).x2.win.length ≤ z.winCapMax := by
  rw [goldrun_x1, goldrun_x2]
  exact ⟨Lfsr.advN_win_length_le _ (Nat.zero_le _) hwin.window_le,
    Lfsr.advN_win_length_le _ (Nat.zero_le _) hwin.window_le⟩

end

/-! Completion and the commands. -/

section

variable {s : State} (h : Inv s)

include h

theorem Inv.finish (e : ErrCode) : Inv (s.finish e) := { h with }

theorem Inv.xload : Inv { s with x1 := loadX1, x2 := loadX2 s.snap.argCinit } :=
  { h with
    x1_nonzero := loadX1_phys_nonzero
    windows_le := ⟨Nat.zero_le _, Nat.zero_le _⟩ }

theorem Inv.advance1 (n : Nat) (hwin : s.snap.WindowLegal s.sizes) :
    Inv { s with x1 := s.x1.advN tapsX1 s.snap.window n } :=
  { h with
    x1_nonzero := Lfsr.advN_tapsX1_nonzero _ n h.x1_nonzero
    windows_le := ⟨Lfsr.advN_win_length_le n h.windows_le.1 hwin.window_le, h.windows_le.2⟩ }

theorem Inv.advance2 (n : Nat) (hwin : s.snap.WindowLegal s.sizes) :
    Inv { s with x2 := s.x2.advN tapsX2 s.snap.window n } :=
  { h with
    windows_le := ⟨h.windows_le.1, Lfsr.advN_win_length_le n h.windows_le.2 hwin.window_le⟩ }

theorem Inv.generate (c : Word) (hlen : s.snap.argLen.toNat ≤ s.sizes.genMaxBits)
    (hwin : s.snap.WindowLegal s.sizes) : Inv (s.generate c) :=
  { h with
    outbuf_wf := Cells.store_wf _ _ _ _ h.outbuf_wf
    outLen_le := hlen
    outbuf_visible := fun i hi => by
      have hcell := lt_maxBits_of_lt_genMaxBits (Nat.lt_of_lt_of_le hi hlen)
      rw [State.generate_outbuf, Cells.known_store_zero _ _ hcell]
      simpa using .inr hi
    x1_nonzero := goldrun_x1_nonzero _ _ _
    windows_le := goldrun_windows_le _ _ hwin
    outbuf_size := fun i hi =>
      Cells.known_store_of_ge _ _ (Nat.zero_add _ ▸ Nat.le_trans hlen hi) (h.outbuf_size i hi) }

theorem Inv.cinit (id sps slot sym : Word) : Inv { s with resCinit := cinitFn id sps slot sym } :=
  { h with resCinit_bit31 := by simp [cinitFn] }

theorem Inv.buildCache (hlen : s.snap.argLen.toNat ≤ s.sizes.cacheMaxBits) (hwin : s.snap.WindowLegal s.sizes) :
    Inv s.buildCache :=
  { h with
    cache_wf := s.buildCache_wf h.cache_wf
    cacheLen_le := hlen
    valid_lengths := fun _ => s.elen_buildCache
    x1_nonzero := goldrun_x1_nonzero _ _ _
    windows_le := goldrun_windows_le _ _ hwin
    cache_size := fun id i hi => by
      rw [State.cacheEntry_buildCache]
      split
      · exact Cells.known_store_of_ge _ _ (Nat.zero_add _ ▸ Nat.le_trans hlen hi) (h.cache_size id i hi)
      · exact BitVec.getLsbD_zero }

theorem Inv.inval : Inv { s with cacheState := .empty } :=
  { h with valid_lengths := fun hvalid => by cases hvalid }

/-- RESULT's first words and RES_COUNT after a search with these hits. -/
theorem Inv.listResults (hits : List Word) (hle : hits.length ≤ Config.numIds) :
    Inv { s with result := s.result.putFromZero hits, resCount := BitVec.ofNat 32 hits.length } := by
  have hcount : (BitVec.ofNat 32 hits.length).toNat = hits.length := by
    rw [BitVec.toNat_ofNat]
    exact Nat.mod_eq_of_lt (Nat.lt_of_le_of_lt hle (by decide))
  refine { h with result_wf := ⟨Memory.putFromZero_sorted _ _ h.result_wf.1, fun e he => ?_⟩,
                  resCount_le := Nat.le_trans (Nat.le_of_eq hcount) hle, result_visible := fun k hk => ?_ }
  · obtain ⟨hlt, -⟩ | ⟨-, hold⟩ := Memory.mem_putFromZero _ _ e he
    · exact Nat.lt_of_lt_of_le hlt hle
    · exact h.result_wf.2 e hold
  · have hk' : k < hits.length := Nat.lt_of_lt_of_eq hk hcount
    simp [Memory.find?_putFromZero _ _ h.result_wf.1, hk']

theorem Inv.recover : Inv s.recover := by
  have hlen := s.findMatches_length_le s.snap.queryBit s.snap.queryLen.toNat s.cacheLen.toNat
  rw [State.recover, ← List.length_map (f := resultOf)]
  exact h.listResults _ (by rwa [List.length_map])

theorem Inv.setReport (report : Vector Word 64) : Inv { s with report } := { h with }

/-- COMMIT of a legal length, whichever way its comparison goes (43_seed_cache.md R106). -/
theorem Inv.commit (state : CacheState) (hlen : s.snap.argLen.toNat ≤ s.sizes.cacheMaxBits)
    (hvalid : state = .valid → ∀ id, id < Config.numIds → s.elen id = s.snap.argLen) :
    Inv { s with cacheLen := s.snap.argLen, cacheState := state } :=
  { h with
    cacheLen_le := hlen
    valid_lengths := hvalid }

end

/-! What passed checks say (60_exceptions.md R123). -/

section

variable {s : State} {i : Instr} (hok : firstError (checksOf i s) = .noError)

include hok

theorem checksOf_passed {bad : Bool} {e : ErrCode} (hmem : (bad, e) ∈ checksOf i s) : bad = false := by
  have hcodes : ∀ c ∈ checksOf i s, c.2 ≠ .noError := by
    cases i <;> simp [checksOf, advanceChecks, genChecks, cinitChecks, genidChecks, buildChecks, commitChecks,
      findChecks, reportChecks]
  exact (firstError_noError_iff _ hcodes).1 hok _ hmem

theorem windowLegal_of_checks {n : Nat}
    (hi : i = .adv1 n ∨ i = .adv2 n ∨ i = .advj n ∨ i = .gen ∨ i = .genid ∨ i = .build) :
    s.snap.WindowLegal s.sizes :=
  Snapshot.windowIllegal_eq_false_iff.1 (checksOf_passed hok (checksOf_advancing s hi).1)

theorem genLen_le_of_checks (hi : i = .gen ∨ i = .genid) : s.snap.argLen.toNat ≤ s.sizes.genMaxBits := by
  have hmem : (s.snap.genLenIllegal s.sizes, .invalidParameter) ∈ checksOf i s := by
    obtain rfl | rfl := hi <;> simp [checksOf, genChecks, genidChecks]
  simpa [Snapshot.genLenIllegal] using checksOf_passed hok hmem

theorem cacheLen_le_of_checks (hi : i = .build ∨ i = .commit) : s.snap.argLen.toNat ≤ s.sizes.cacheMaxBits := by
  have hmem : (s.snap.cacheLenIllegal s.sizes, .invalidParameter) ∈ checksOf i s := by
    obtain rfl | rfl := hi <;> simp [checksOf, buildChecks, commitChecks]
  simpa [Snapshot.cacheLenIllegal] using checksOf_passed hok hmem

end

section

variable {s t : State}

theorem Inv.effectOf {i : Instr} (h : Inv s) (hok : firstError (checksOf i s) = .noError) : Inv (effectOf i s) := by
  cases i with
  | nop => exact h
  | xload => exact h.xload
  | adv1 n => exact h.advance1 n (windowLegal_of_checks hok (n := n) (by simp))
  | adv2 n => exact h.advance2 n (windowLegal_of_checks hok (n := n) (by simp))
  | advj n =>
    have hwin : s.snap.WindowLegal s.sizes := windowLegal_of_checks hok (n := n) (by simp)
    exact (h.advance1 n hwin).advance2 n hwin
  | gen =>
    rw [effectOf_gen]
    exact h.generate _ (genLen_le_of_checks hok (by simp)) (windowLegal_of_checks hok (n := 0) (by simp))
  | cinit =>
    rw [effectOf_cinit]
    exact h.cinit _ _ _ _
  | genid =>
    have hlen := genLen_le_of_checks hok (.inr rfl)
    have hwin := windowLegal_of_checks hok (n := 0) (by simp)
    rw [effectOf_genid]
    exact (h.cinit _ _ _ _).generate _ hlen hwin
  | build =>
    rw [effectOf_build]
    exact h.buildCache (cacheLen_le_of_checks hok (by simp)) (windowLegal_of_checks hok (n := 0) (by simp))
  | commit => exact h
  | inval => exact h.inval
  | find =>
    rw [effectOf_find]
    exact h.recover
  | report =>
    rw [effectOf_report, State.identifiability]
    exact h.setReport _

theorem Inv.exec {i : Instr} (h : Inv s) (hexec : exec i s = .next t) : Inv t := by
  obtain ⟨-, rfl⟩ | ⟨-, hok, rfl⟩ | ⟨rfl, hok, ⟨heq, rfl⟩ | ⟨-, rfl⟩⟩ := exec_cases i s t hexec
  · exact h.finish _
  · exact (h.effectOf hok).finish _
  · have hall := (s.everyLenIs_iff _).1 heq
    exact (h.commit .valid (cacheLen_le_of_checks hok (by simp)) fun _ => hall).finish _
  · exact (h.commit .stale (cacheLen_le_of_checks hok (by simp)) fun hstale => by cases hstale).finish _

theorem Inv.engineTurn (h : Inv s) (hturn : engineTurn s = .next t) : Inv t := by
  obtain rfl | rfl | ⟨i, hexec⟩ := engineTurn_cases hturn
  · exact h
  · exact h.finish _
  · exact h.exec hexec

end

/-! The host's accesses. -/

section

variable {s : State}

theorem Inv.accessError (h : Inv s) : Inv s.accessError := { h with }

theorem Inv.hostRead (h : Inv s) (a : BitVec 16) (size : Nat) : Inv (s.hostRead a size) := by
  obtain ⟨-, heq⟩ | ⟨r, -, heq⟩ := s.hostRead_cases a size <;> rw [heq]
  · exact { h with }
  · exact { h with }

/-- The selected entry replaced by a host write, which sets EMPTY (43_seed_cache.md R104). -/
theorem Inv.replaceEntry (h : Inv s) (e : CacheEntry) (hwf : e.cells.wf)
    (hsize : ∀ i, s.sizes.cacheMaxBits ≤ i → e.cells.known.getLsbD i = false) :
    Inv { s.setCacheEntry s.cacheSel.toNat e with cacheState := .empty } :=
  { h with
    cache_wf := s.setCacheEntry_wf h.cache_wf _ e s.cacheSel.isLt hwf
    valid_lengths := fun hvalid => by cases hvalid
    cache_size := fun id i hi => by
      show ((s.setCacheEntry s.cacheSel.toNat e).cacheEntry id).cells.known.getLsbD i = false
      rw [State.cacheEntry_setCacheEntry]
      split
      · exact hsize i hi
      · exact h.cache_size id i hi }

theorem Inv.writeElen (h : Inv s) (v : Word) : Inv (s.writeElen v) :=
  h.replaceEntry _ (s.cacheEntry_cells_wf h.cache_wf _) (h.cache_size _)

theorem Inv.writeCacheWin (h : Inv s) {w : Nat} (hw : w < s.sizes.cacheWords) (v : Word) :
    Inv (s.writeCacheWin w v) := by
  have hlast : 32 * w + 32 ≤ s.sizes.cacheMaxBits := by
    simp only [Config.Sizes.cacheWords] at hw
    omega
  exact h.replaceEntry _ (Cells.store_wf _ _ _ _ (s.cacheEntry_cells_wf h.cache_wf _)) fun i hi =>
    Cells.known_store_of_ge _ _ (Nat.le_trans hlast hi) (h.cache_size _ i hi)

end

/-! Resets (70_reset_and_hazards.md R138 to R140). -/

/-- The state whose memories a soft reset keeps (70_reset_and_hazards.md R139, R140). -/
def State.keptByReset (s : State) : State := if s.busy then s.abandon else s

section

variable (s : State)

theorem State.keptByReset_of_idle (h : s.busy = false) : s.keptByReset = s := by
  simp [State.keptByReset, h]

theorem State.keptByReset_of_busy (h : s.busy = true) : s.keptByReset = s.abandon :=
  if_pos h

theorem State.keptByReset_sizes : s.keptByReset.sizes = s.sizes := by
  cases hbusy : s.busy with
  | false => rw [s.keptByReset_of_idle hbusy]
  | true =>
    rw [s.keptByReset_of_busy hbusy]
    obtain heq | heq | heq | heq := s.abandon_cases <;> rw [heq]

theorem State.keptByReset_freeCount : s.keptByReset.freeCount = s.freeCount := by
  cases hbusy : s.busy with
  | false => rw [s.keptByReset_of_idle hbusy]
  | true =>
    rw [s.keptByReset_of_busy hbusy]
    obtain heq | heq | heq | heq := s.abandon_cases <;> rw [heq]

end

/-- What the invariant says of the memories' cells alone; an aborted command keeps this and not what OUT_LEN and
RES_COUNT show, which a reset clears. The marks may hold the number that the reset is about to draw. -/
structure CanonicalMemories (s : State) : Prop where
  outbuf_wf : s.outbuf.wf
  cache_wf : cacheWf s.cache
  result_wf : s.result.sorted ∧ ∀ e ∈ s.result, e.1 < Config.numIds
  outbuf_size : ∀ i, s.sizes.genMaxBits ≤ i → s.outbuf.known.getLsbD i = false
  cache_size : ∀ id i, s.sizes.cacheMaxBits ≤ i → (s.cacheEntry id).cells.known.getLsbD i = false
  marks_drawn : s.outbufMark.drawnBelow (s.freeCount + 1) ∧ s.cacheMark.drawnBelow (s.freeCount + 1) ∧
    s.resultMark < s.freeCount + 1

section

variable {s : State}

theorem FreeMark.drawnBelow_succ {m : FreeMark} {n : Nat} (h : m.drawnBelow n) : m.drawnBelow (n + 1) :=
  ⟨Nat.lt_succ_of_lt h.1, fun p hp => Nat.lt_succ_of_lt (h.2 p hp)⟩

/-- A renewed mark holds the number just drawn, and its old ones. -/
theorem FreeMark.renew_drawnBelow {m : FreeMark} {n : Nat} (bound : Nat) (h : m.drawnBelow (n + 1)) :
    (m.renew bound n).drawnBelow (n + 1) := by
  refine ⟨h.1, fun p hp => ?_⟩
  obtain rfl | hold := List.mem_cons.1 hp
  · exact Nat.lt_succ_self n
  · exact h.2 p hold

theorem Inv.canonicalMemories (h : Inv s) : CanonicalMemories s :=
  { h with
    marks_drawn := ⟨FreeMark.drawnBelow_succ h.marks_drawn.1, FreeMark.drawnBelow_succ h.marks_drawn.2.1,
      Nat.lt_succ_of_lt h.marks_drawn.2.2⟩ }

theorem CanonicalMemories.abandon (h : CanonicalMemories s) : CanonicalMemories s.abandon := by
  obtain ⟨hout, hcache, hresult⟩ := h.marks_drawn
  obtain heq | heq | heq | heq := s.abandon_cases <;> rw [heq]
  · exact h
  · exact { h with
      outbuf_wf := Cells.forget_wf _ _ h.outbuf_wf
      outbuf_size := fun i hi => Cells.known_forget_of_unknown _ (h.outbuf_size i hi)
      marks_drawn := ⟨FreeMark.renew_drawnBelow _ hout, hcache, hresult⟩ }
  · exact { h with
      cache_wf := cacheWf_mapContents (fun e => { e with cells := e.cells.forget s.snap.argLen.toNat }) _ h.cache_wf
        fun e he => Cells.forget_wf _ _ he
      cache_size := fun id i hi => by
        rw [State.cacheEntry, Memory.get_mapContents _ _ _ h.cache_wf.1.1 (CacheEntry.forget_blank _)]
        exact Cells.known_forget_of_unknown _ (h.cache_size id i hi)
      marks_drawn := ⟨hout, FreeMark.renew_drawnBelow _ hcache, hresult⟩ }
  · exact { h with
      result_wf := ⟨List.Pairwise.nil, fun e he => by cases he⟩
      marks_drawn := ⟨hout, hcache, Nat.lt_succ_self _⟩ }

theorem CanonicalMemories.keptByReset (h : CanonicalMemories s) : CanonicalMemories s.keptByReset := by
  cases hbusy : s.busy with
  | false => rwa [s.keptByReset_of_idle hbusy]
  | true =>
    rw [s.keptByReset_of_busy hbusy]
    exact h.abandon

/-- The hardware reset establishes the invariant, whatever the state before. -/
theorem Inv.hardReset (s : State) : Inv s.hardReset where
  outbuf_wf := Cells.blank_wf _
  cache_wf := ⟨⟨List.Pairwise.nil, fun e he => by cases he⟩, fun e he => by cases he⟩
  result_wf := ⟨List.Pairwise.nil, fun e he => by cases he⟩
  outLen_le := Nat.zero_le _
  outbuf_visible := fun i hi => absurd hi (Nat.not_lt_zero i)
  resCinit_bit31 := BitVec.getLsbD_zero
  resCount_le := Nat.zero_le _
  result_visible := fun k hk => absurd hk (Nat.not_lt_zero k)
  cacheLen_le := Nat.zero_le _
  valid_lengths := fun hvalid => by cases hvalid
  x1_nonzero := loadX1_phys_nonzero
  windows_le := ⟨Nat.zero_le _, Nat.zero_le _⟩
  marks_drawn := ⟨⟨Nat.lt_succ_self _, fun p hp => by cases hp⟩, ⟨Nat.lt_succ_self _, fun p hp => by cases hp⟩,
    Nat.lt_succ_self _⟩
  outbuf_size := fun i _ => BitVec.getLsbD_zero
  cache_size := fun id i _ => BitVec.getLsbD_zero

/-- A soft reset is a hardware reset that keeps the memories, save for what it abandons. -/
theorem Inv.softReset (h : Inv s) : Inv s.softReset := by
  have hkept : CanonicalMemories s.keptByReset := h.canonicalMemories.keptByReset
  have hmarks := hkept.marks_drawn
  have hsize := hkept.outbuf_size
  rw [State.keptByReset_freeCount] at hmarks
  rw [State.keptByReset_sizes] at hsize
  exact { Inv.hardReset s with
    outbuf_wf := hkept.outbuf_wf
    outbuf_visible := fun i hi => absurd hi (Nat.not_lt_zero i)
    cache_wf := cacheWf_mapContents (fun e => { e with elen := 0#32 }) _ hkept.cache_wf fun e he => he
    result_wf := hkept.result_wf
    result_visible := fun k hk => absurd hk (Nat.not_lt_zero k)
    valid_lengths := fun hvalid => by cases hvalid
    marks_drawn := hmarks
    outbuf_size := hsize
    cache_size := fun id i hi => by
      rw [s.cacheEntry_softReset hkept.cache_wf.1.1]
      exact hkept.cache_size id i (s.keptByReset_sizes ▸ hi) }

theorem Inv.writeEffect (h : Inv s) {r : Reg} (hlisted : r.listed s.sizes = true) (v : Word) :
    Inv (s.writeEffect r v) := by
  cases r with
  | ctrl =>
    rw [State.writeEffect, State.controlWrite]
    split
    · exact h.softReset
    · exact { h with }
  | cmd =>
    rw [State.writeEffect, State.issue]
    split
    · exact { h with }
    · exact { h with }
  | cacheElen => exact h.writeElen v
  | cacheWin w => exact h.writeCacheWin (of_decide_eq_true hlisted) v
  | _ => exact { h with }

theorem Inv.hostWrite (h : Inv s) (a : BitVec 16) (size : Nat) (v : Word) : Inv (s.hostWrite a size v) := by
  obtain heq | ⟨r, hreach, -, heq⟩ := s.hostWrite_cases a size v <;> rw [heq]
  · exact h.accessError
  · obtain ⟨hlistedAt, -, -⟩ := s.reaches_some a size r hreach
    exact h.writeEffect ((Reg.listedAt_eq_some_iff _ _ _).1 hlistedAt).2 v

end

theorem Inv.runEvent {s t : State} {e : Event} (h : Inv s) (hevent : runEvent e s = .next t) : Inv t := by
  cases e with
  | engine => exact h.engineTurn hevent
  | read a size => exact Host.Outcome.next.inj hevent ▸ h.hostRead a size
  | write a size v => exact Host.Outcome.next.inj hevent ▸ h.hostWrite a size v
  | hardReset => exact Host.Outcome.next.inj hevent ▸ Inv.hardReset s

/-- Settles O59: the engine's turn and each event keep the invariant, which does not speak of the events to come. -/
theorem stepKeepsInv : Obligations.StepKeepsInv := by
  unfold Obligations.StepKeepsInv
  intro s t h hstep
  obtain hturn | ⟨e, rest, hevent⟩ := step_cases hstep
  · exact h.engineTurn hturn
  · have hrest : Inv { s with pending := rest } := { h with }
    exact hrest.runEvent hevent

/-- The power-on state is a hardware reset that draws the free-value number 0 (70_reset_and_hazards.md R138, log 4). -/
theorem State.reset_eq_hardReset : State.reset = State.hardReset { State.reset with freeCount := 0 } := rfl

/-- Settles O58: the power-on state is a hardware reset, after which the invariant holds. -/
theorem invHoldsAtReset : Obligations.InvHoldsAtReset := by
  unfold Obligations.InvHoldsAtReset
  rw [State.reset_eq_hardReset]
  exact Inv.hardReset _

end Sys2Proof.Machine
end

section
/-! The seed cache's short commands COMMIT and INVAL (43_seed_cache.md R106, R107), NOP (45_system.md R116), and the
host's loading of one entry (43_seed_cache.md R109). -/

namespace Sys2Proof.Machine

/-! COMMIT, INVAL and NOP. -/

theorem exec_commit_of_legal {s : State} (hlen : s.snap.argLen.toNat ≤ s.sizes.cacheMaxBits) :
    exec .commit s = .next
      (if s.everyLenIs s.snap.argLen then { s with cacheLen := s.snap.argLen, cacheState := .valid }.finish .noError
      else { s with cacheLen := s.snap.argLen, cacheState := .stale }.finish .cacheMismatch) := by
  have hok : firstError (commitChecks s.sizes s.snap) = .noError := by
    simp [commitChecks, firstError, Snapshot.cacheLenIllegal_of_le hlen]
  rw [exec, execCommit, hok]

/-- Settles O23: COMMIT's comparison says that every recorded length is the requested one. -/
theorem commitValidatesLengths : Obligations.CommitValidatesLengths := by
  unfold Obligations.CommitValidatesLengths
  refine fun s hlen => ⟨fun hall => ?_, fun ⟨id, hid, hother⟩ => ?_⟩
  · rw [exec_commit_of_legal hlen, if_pos ((s.everyLenIs_iff _).2 hall), State.finish]
  · rw [exec_commit_of_legal hlen, if_neg fun heq => hother ((s.everyLenIs_iff _).1 heq id hid), State.finish]

/-- Settles O24: INVAL has no check, and its effect is the one field. -/
theorem invalMarksEmpty : Obligations.InvalMarksEmpty := by
  unfold Obligations.InvalMarksEmpty
  exact fun s => exec_ok .inval s (by decide) rfl

/-- Settles O14: NOP has no check and no effect. -/
theorem nopOnlyCompletes : Obligations.NopOnlyCompletes := by
  unfold Obligations.NopOnlyCompletes
  exact fun s => exec_ok .nop s (by decide) rfl

/-! Loading one entry (43_seed_cache.md R109). -/

theorem cacheWords_le (z : Config.Sizes) : z.cacheWords ≤ 2048 := by
  have hlegal := z.cacheMaxBits_legal
  simp only [Config.Sizes.cacheWords]
  omega

/-- The writes of the words `words` to CACHE_WIN from word `k` on. -/
def cacheWinWrites (k : Nat) (words : List Word) : List Event :=
  (List.range' k words.length).zipWith (fun w v => wr (.cacheWin (Fin.ofNat 2048 w)) v) words

theorem loadEntry_eq (id : Nat) (len : Word) (words : List Word) :
    loadEntry id len words =
      wr .cacheSel (BitVec.ofNat 32 id) :: wr .cacheElen len :: cacheWinWrites 0 words := rfl

theorem cacheWinWrites_cons (k : Nat) (v : Word) (words : List Word) :
    cacheWinWrites k (v :: words) = wr (.cacheWin (Fin.ofNat 2048 k)) v :: cacheWinWrites (k + 1) words := rfl

/-- The selected entry after these writes: the words stored one after the other. -/
def State.storeWords (s : State) (k : Nat) : List Word → State
  | [] => s
  | v :: words => (s.writeCacheWin k v).storeWords (k + 1) words

section

variable (s : State) (k : Nat) (words : List Word)

theorem State.storeWords_cacheState (h : s.cacheState = .empty) : (s.storeWords k words).cacheState = .empty := by
  induction words generalizing s k with
  | nil => exact h
  | cons v words ih => exact ih _ _ rfl

theorem State.elen_storeWords (id : Nat) : (s.storeWords k words).elen id = s.elen id := by
  induction words generalizing s k with
  | nil => rfl
  | cons v words ih => exact (ih _ _).trans (s.elen_writeCacheWin v k id)

theorem State.cacheEntry_storeWords {id : Nat} (hid : id ≠ s.cacheSel.toNat) :
    (s.storeWords k words).cacheEntry id = s.cacheEntry id := by
  induction words generalizing s k with
  | nil => rfl
  | cons v words ih =>
    refine (ih (s.writeCacheWin k v) (k + 1) hid).trans ?_
    rw [State.cacheEntry_writeCacheWin, if_neg hid]

/-- Bit `i` of the selected entry comes from bit `i % 32` of word `i / 32`, if that was stored (10_state.md R45). -/
theorem State.cacheBit_storeWords {i : Nat} (hi : i < Config.maxBits) :
    (s.storeWords k words).cacheBit s.cacheSel.toNat i =
      if 32 * k ≤ i ∧ i < 32 * (k + words.length) then (words.getD (i / 32 - k) 0#32).getLsbD (i % 32)
      else s.cacheBit s.cacheSel.toNat i := by
  induction words generalizing s k with
  | nil => rw [if_neg (by simp)]; rfl
  | cons v words ih =>
    refine (ih (s.writeCacheWin k v) (k + 1)).trans ?_
    rw [State.cacheBit_writeCacheWin _ _ _ _ _ hi]
    obtain hlow | hword | hhigh : i < 32 * k ∨ (32 * k ≤ i ∧ i < 32 * k + 32) ∨ 32 * k + 32 ≤ i := by omega
    · rw [if_neg (by omega), if_neg (by omega), if_neg (by omega)]
      rfl
    · have hfirst : i / 32 - k = 0 := by omega
      have hbit : i % 32 = i - 32 * k := by omega
      rw [if_neg (by omega), if_pos ⟨rfl, hword⟩, if_pos (by simp; omega), hfirst, hbit]
      rfl
    · have hnext : i / 32 - k = i / 32 - (k + 1) + 1 := by omega
      rw [if_neg (show ¬ (_ ∧ 32 * k ≤ i ∧ i < 32 * k + 32) by omega), hnext, List.getD_cons_succ, List.length_cons]
      exact ite_congr (propext (by omega)) (fun _ => rfl) fun _ => rfl

end

section

variable {s : State}

/-- The state with these events to come. -/
def State.withPending (s : State) (events : List Event) : State := { s with pending := events }

/-- A host write that comes next (30_encoding.md R77). -/
theorem step_wr (r : Reg) (v : Word) (rest : List Event) :
    step (s.withPending (wr r v :: rest)) = .next ((s.withPending rest).hostWrite r.offset 4 v) :=
  step_cons (s.withPending (wr r v :: rest)) (wr r v) rest rfl

theorem step_wr_cacheWin {k : Nat} (v : Word) (rest : List Event) (hidle : s.busy = false)
    (hk : k < s.sizes.cacheWords) :
    step (s.withPending (wr (.cacheWin (Fin.ofNat 2048 k)) v :: rest)) =
      .next ((s.writeCacheWin k v).withPending rest) := by
  have hword : (Fin.ofNat 2048 k).val = k := Nat.mod_eq_of_lt (Nat.lt_of_lt_of_le hk (cacheWords_le s.sizes))
  have hlisted : (Fin.ofNat 2048 k).val < (s.withPending rest).sizes.cacheWords :=
    Nat.lt_of_le_of_lt (Nat.le_of_eq hword) hk
  rw [step_wr, State.hostWrite_cacheWin_of_idle v _ hlisted hidle, hword]
  rfl

/-- An idle block performs the writes one a step. -/
theorem run_cacheWinWrites {k : Nat} {words : List Word} (hidle : s.busy = false)
    (hfit : k + words.length ≤ s.sizes.cacheWords) :
    Host.Core.run Sys2Proof.core words.length (s.withPending (cacheWinWrites k words)) =
      .next ((s.storeWords k words).withPending []) := by
  induction words generalizing s k with
  | nil => rfl
  | cons v words ih =>
    rw [List.length_cons] at hfit ⊢
    have hrest : k + 1 + words.length ≤ s.sizes.cacheWords := by omega
    rw [cacheWinWrites_cons, run_succ _ _ _ (step_wr_cacheWin v _ hidle (by omega))]
    exact ih (s := s.writeCacheWin k v) hidle hrest

/-- The state with another entry selected (10_state.md R43). -/
def State.selectEntry (s : State) (id : Nat) : State := { s with cacheSel := BitVec.ofNat 16 id }

theorem State.selectEntry_cacheSel {id : Nat} (hid : id < 65536) : (s.selectEntry id).cacheSel.toNat = id :=
  (BitVec.toNat_ofNat id 16).trans (Nat.mod_eq_of_lt hid)

theorem step_wr_cacheSel (id : Nat) (rest : List Event) (hidle : s.busy = false) :
    step (s.withPending (wr .cacheSel (BitVec.ofNat 32 id) :: rest)) = .next ((s.selectEntry id).withPending rest) := by
  have hsel : (BitVec.ofNat 32 id).extractLsb' 0 16 = BitVec.ofNat 16 id := by
    apply BitVec.eq_of_toNat_eq
    simp
  rw [step_wr, State.hostWrite_of_idle (s := s.withPending rest) (r := .cacheSel) _ hidle rfl rfl,
    State.writeEffect, hsel]
  rfl

theorem step_wr_cacheElen (len : Word) (rest : List Event) (hidle : s.busy = false) :
    step (s.withPending (wr .cacheElen len :: rest)) = .next ((s.writeElen len).withPending rest) := by
  rw [step_wr, State.hostWrite_cacheElen_of_idle (s := s.withPending rest) len hidle]
  rfl

/-- An idle block performs the load of one entry: it selects the entry and stores its length and its words. -/
theorem run_loadEntry (id : Nat) (len : Word) {words : List Word} (hidle : s.busy = false)
    (hfit : words.length ≤ s.sizes.cacheWords) :
    Host.Core.run Sys2Proof.core (words.length + 2) (s.withPending (loadEntry id len words)) =
      .next ((((s.selectEntry id).writeElen len).storeWords 0 words).withPending []) := by
  rw [loadEntry_eq, run_succ _ _ _ (step_wr_cacheSel id _ hidle),
    run_succ _ _ _ (step_wr_cacheElen (s := s.selectEntry id) len _ hidle)]
  exact run_cacheWinWrites (s := (s.selectEntry id).writeElen len) hidle (Nat.le_trans (Nat.le_of_eq (Nat.zero_add _)) hfit)

end

/-- The bits of an entry after its load: those of the words, and then its old ones. -/
theorem State.cacheBit_loadEntry (s : State) {id i : Nat} (len : Word) (words : List Word) (hid : id < 65536)
    (hi : i < s.sizes.cacheMaxBits) :
    (((s.selectEntry id).writeElen len).storeWords 0 words).cacheBit id i =
      if i < 32 * words.length then (words.getD (i / 32) 0#32).getLsbD (i % 32) else s.cacheBit id i := by
  have hsel : ((s.selectEntry id).writeElen len).cacheSel.toNat = id := s.selectEntry_cacheSel hid
  have hold : ((s.selectEntry id).writeElen len).cacheBit id i = s.cacheBit id i := State.cacheBit_writeElen _ len id i
  have hstored :=
    ((s.selectEntry id).writeElen len).cacheBit_storeWords 0 words (lt_maxBits_of_lt_cacheMaxBits hi)
  rw [hsel, hold] at hstored
  simpa using hstored

/-- Settles O39: the run of `run_loadEntry`, and what its stores leave in the selected and in every other entry. -/
theorem loadedEntryHoldsItsWords : Obligations.LoadedEntryHoldsItsWords := by
  unfold Obligations.LoadedEntryHoldsItsWords
  intro s id len words hidle hid hfit
  have hsel : (s.selectEntry id).cacheSel.toNat = id := s.selectEntry_cacheSel hid
  have hmax : 32 * words.length ≤ s.sizes.cacheMaxBits := by
    have hlegal := s.sizes.cacheMaxBits_legal
    simp only [Config.Sizes.cacheWords] at hfit
    omega
  refine ⟨_, run_loadEntry id len hidle hfit, rfl, State.storeWords_cacheState _ 0 words rfl, ?_, fun i hi => ?_,
    fun i hi hlt => ?_, fun id' hother => ?_⟩
  · refine (State.elen_storeWords _ 0 words id).trans ?_
    rw [State.elen_writeElen, if_pos hsel.symm]
  · exact (s.cacheBit_loadEntry len words hid (Nat.lt_of_lt_of_le hi hmax)).trans (if_pos hi)
  · exact (s.cacheBit_loadEntry len words hid hlt).trans (if_neg (Nat.not_lt.2 hi))
  · have hunselected : id' ≠ (s.selectEntry id).cacheSel.toNat := fun heq => hother (heq.trans hsel)
    refine (State.cacheEntry_storeWords ((s.selectEntry id).writeElen len) 0 words hunselected).trans ?_
    rw [State.cacheEntry_writeElen, if_neg hunselected]
    rfl

end Sys2Proof.Machine
end

section
/-! The matcher (44_recovery.md R110) and the commands FIND and REPORT (R113, R114): what each leaves when its
operands are legal, and what follows from it for an entry's own tail. -/

namespace Sys2Proof.Machine

/-! A match, as the spec states it, and the searches for one. -/

/-- Entry `id` holds `q[0..L)` at position `p` of its first `N` bits (44_recovery.md R110). -/
def State.HoldsAt (s : State) (q : Nat → Bool) (L N id p : Nat) : Prop :=
  p + L ≤ N ∧ ∀ j, j < L → s.cacheBit id (p + j) = q j

section

variable (s : State) (q : Nat → Bool) (L N id p : Nat)

theorem State.holdsAt_iff :
    s.HoldsAt q L N id p ↔ p < N + 1 - L ∧ s.matchesAt q L id (s.cacheEntry id) p = true := by
  rw [State.matchesAt_iff, State.HoldsAt]
  exact and_congr (by omega) Iff.rfl

/-- The search answers the least match. -/
theorem State.matchPos_eq_some_iff_holdsAt :
    s.matchPos q L N id (s.cacheEntry id) = some p ↔
      s.HoldsAt q L N id p ∧ ∀ p', p' < p → ¬ s.HoldsAt q L N id p' := by
  rw [State.matchPos_eq_some_iff, ← and_assoc, ← State.holdsAt_iff]
  refine and_congr_right fun hp => forall_congr' fun p' => imp_congr_right fun hlt => ?_
  have hrange : p' < N + 1 - L := by
    rw [State.holdsAt_iff] at hp
    omega
  rw [State.holdsAt_iff, not_and, Bool.not_eq_true]
  exact ⟨fun hno _ => hno, fun hno => hno hrange⟩

theorem State.matchPos_isSome_iff_holdsAt :
    (s.matchPos q L N id (s.cacheEntry id)).isSome = true ↔ ∃ p, s.HoldsAt q L N id p := by
  rw [State.matchPos_isSome_iff]
  exact exists_congr fun p => (s.holdsAt_iff q L N id p).symm

theorem State.mem_findMatches_iff_holdsAt :
    (id, p) ∈ s.findMatches q L N ↔
      id < Config.numIds ∧ s.HoldsAt q L N id p ∧ ∀ p', p' < p → ¬ s.HoldsAt q L N id p' := by
  rw [State.mem_findMatches, State.matchPos_eq_some_iff_holdsAt]

end

/-! FIND (44_recovery.md R113). -/

/-- FIND's matches for the accepted query. -/
def State.hits (s : State) : List (Nat × Nat) :=
  s.findMatches s.snap.queryBit s.snap.queryLen.toNat s.cacheLen.toNat

section

variable {s : State}

theorem exec_find_of_legal (hlow : 1 ≤ s.snap.queryLen.toNat) (hhigh : s.snap.queryLen.toNat ≤ 64)
    (hvalid : s.cacheState = .valid) : exec .find s = .next (s.recover.finish .noError) := by
  have hquery : s.snap.queryLenIllegal = false := by
    rw [← Bool.not_eq_true, s.snap.queryLenIllegal_iff]
    omega
  rw [exec_ok .find s (by decide) (by simp [checksOf, findChecks, firstError, hquery, hvalid]), effectOf_find]

theorem State.recover_resCount_toNat : s.recover.resCount.toNat = s.hits.length := by
  have hle : s.hits.length ≤ Config.numIds := s.findMatches_length_le _ _ _
  exact (BitVec.toNat_ofNat _ _).trans (Nat.mod_eq_of_lt (Nat.lt_of_le_of_lt hle (by decide)))

/-- RESULT after the search, by its matches. -/
theorem State.resultWord_recover_hits (hs : s.result.sorted) (k : Nat) :
    s.recover.resultWord k = if h : k < s.hits.length then resultOf s.hits[k] else s.resultWord k :=
  s.resultWord_recover hs k

section

variable (hlow : 1 ≤ s.snap.queryLen.toNat) (hmax : s.cacheLen.toNat ≤ s.sizes.cacheMaxBits)

include hlow hmax

/-- Identifier and position of a match fit their fields of a RESULT word: a query bit leaves no match at position
65536. -/
theorem State.hits_lt {hit : Nat × Nat} (hmem : hit ∈ s.hits) : hit.1 < 65536 ∧ hit.2 < 65536 := by
  obtain ⟨hid, ⟨hfit, -⟩, -⟩ := (s.mem_findMatches_iff_holdsAt _ _ _ _ _).1 hmem
  have hlegal := s.sizes.cacheMaxBits_legal
  exact ⟨hid, by omega⟩

theorem State.resultWord_recover_fields (hs : s.result.sorted) {k : Nat} (hk : k < s.hits.length) :
    (s.recover.resultWord k).toNat % 65536 = s.hits[k].1 ∧ (s.recover.resultWord k).toNat / 65536 = s.hits[k].2 := by
  obtain ⟨hid, hp⟩ := State.hits_lt hlow hmax (List.getElem_mem hk)
  have hword : (s.recover.resultWord k).toNat = 65536 * s.hits[k].2 + s.hits[k].1 := by
    rw [s.resultWord_recover_hits hs, dif_pos hk]
    exact resultOf_toNat _ _ hid hp
  omega

end

theorem State.resultWord_recover_of_ge (hs : s.result.sorted) {k : Nat} (hk : s.hits.length ≤ k) :
    s.recover.resultWord k = s.resultWord k := by
  rw [s.resultWord_recover_hits hs, dif_neg (Nat.not_lt.2 hk)]

end

/-- Settles O25: the listed words are the matches, which the search gives in ascending order with their least
positions. -/
theorem findListsEveryMatch : Obligations.FindListsEveryMatch := by
  unfold Obligations.FindListsEveryMatch
  intro s hlow hhigh hvalid hmax hs L hit
  have hcount : s.recover.resCount.toNat = s.hits.length := State.recover_resCount_toNat
  have hfields {k : Nat} (hk : k < s.hits.length) := State.resultWord_recover_fields hlow hmax hs hk
  have hmem (id p : Nat) : (id, p) ∈ s.hits ↔ id < 65536 ∧ hit id p ∧ ∀ p', p' < p → ¬ hit id p' :=
    s.mem_findMatches_iff_holdsAt _ _ _ _ _
  refine ⟨_, exec_find_of_legal hlow hhigh hvalid, ⟨rfl, rfl, rfl⟩, ?_, ?_, ?_, ?_, ?_, rfl⟩ <;>
    simp only [State.finish_resCount, State.resultWord_finish, hcount]
  · exact s.findMatches_length_le _ _ _
  · intro id hid
    constructor
    · intro hex
      obtain ⟨p, hp⟩ := Option.isSome_iff_exists.1 ((s.matchPos_isSome_iff_holdsAt _ _ _ _).2 hex)
      obtain ⟨k, hk, hget⟩ := List.mem_iff_getElem.1 ((s.mem_findMatches _ _ _ id p).2 ⟨hid, hp⟩)
      exact ⟨k, hk, (hfields hk).1.trans (congrArg Prod.fst hget)⟩
    · rintro ⟨k, hk, hword⟩
      obtain ⟨-, hhit, -⟩ := (hmem _ _).1 (List.getElem_mem hk)
      exact ⟨_, hword ▸ (hfields hk).1 ▸ hhit⟩
  · intro k hk
    obtain ⟨hid, hp⟩ := hfields hk
    rw [hid, hp]
    obtain ⟨-, hleast⟩ := (hmem _ _).1 (List.getElem_mem hk)
    exact hleast
  · intro k k' hlt hk'
    rw [(hfields (Nat.lt_trans hlt hk')).1, (hfields hk').1]
    exact List.pairwise_iff_getElem.1 (s.findMatches_sorted _ _ _) k k' _ _ hlt
  · exact fun k hk => State.resultWord_recover_of_ge hs hk

/-- Settles O40: the tail's own position is a match, so FIND lists the entry with a position not behind it. -/
theorem tailOfAnEntryIsFound : Obligations.TailOfAnEntryIsFound := by
  unfold Obligations.TailOfAnEntryIsFound
  intro s t id hid hvalid hmax hs hlow hhigh hfit htail hexec
  obtain ⟨t', hexec', -, -, hlisted, hleast, -⟩ := findListsEveryMatch s hlow hhigh hvalid hmax hs
  obtain rfl : t' = t := Host.Outcome.next.inj (hexec'.symm.trans hexec)
  have hown : s.HoldsAt s.snap.queryBit s.snap.queryLen.toNat s.cacheLen.toNat id
      (s.cacheLen.toNat - s.snap.queryLen.toNat) :=
    ⟨by omega, fun j hj => (htail j hj).symm⟩
  obtain ⟨k, hk, hword⟩ := (hlisted id hid).1 ⟨_, hown⟩
  obtain ⟨-, hfirst⟩ := hleast k hk
  exact ⟨k, hk, hword, Nat.le_of_not_lt fun hlt => hfirst _ hlt (hword ▸ hown)⟩

/-! REPORT (44_recovery.md R114). -/

/-- Entry `id` holds the truth entry's tail of length `L`. -/
def State.holdsTail (s : State) (L id : Nat) : Bool :=
  (s.matchPos (s.tailBit s.snap.argId.toNat L) L s.cacheLen.toNat id (s.cacheEntry id)).isSome

section

variable {s : State}

theorem exec_report_of_legal (hid : s.snap.argId.toNat ≤ 65535) (hvalid : s.cacheState = .valid)
    (hlen : 64 ≤ s.cacheLen.toNat) : exec .report s = .next (s.identifiability.finish .noError) := by
  have hok : firstError (checksOf .report s) = .noError := by
    simp [checksOf, reportChecks, firstError, Snapshot.idIllegal_of_le hid, hvalid, Config.queryMax, hlen]
  rw [exec_ok .report s (by decide) hok, effectOf_report]

/-- What a successful REPORT says of its operands, and its effect. -/
theorem exec_report_succeeded {t : State} (h : exec .report s = .next t) (herr : t.err = .noError) :
    s.snap.argId.toNat ≤ 65535 ∧ 64 ≤ s.cacheLen.toNat ∧ t = s.identifiability.finish .noError := by
  have hcode := (exec_report_err h).symm.trans herr
  split at hcode
  · cases hcode
  next hid =>
    split at hcode
    · cases hcode
    · cases hcode
    next hvalid =>
      split at hcode
      · cases hcode
      next hlen =>
        have hid' : s.snap.argId.toNat ≤ 65535 := Nat.le_of_not_lt hid
        have hlen' : 64 ≤ s.cacheLen.toNat := Nat.le_of_not_lt hlen
        exact ⟨hid', hlen', Host.Outcome.next.inj (h.symm.trans (exec_report_of_legal hid' hvalid hlen'))⟩

/-- No more entries hold a tail than there are identifiers. -/
theorem State.countP_holdsTail_le (L : Nat) : (List.range 65536).countP (s.holdsTail L) ≤ 65536 :=
  Nat.le_trans List.countP_le_length (Nat.le_of_eq List.length_range)

/-- A REPORT word counts the identifiers whose entries hold the tail. -/
theorem State.reportWords_toNat (k : Fin 64) :
    (s.reportWords[k]).toNat = (List.range 65536).countP (s.holdsTail (k.val + 1)) := by
  have hcount : s.countMatches s.entryTable (s.tailBit s.snap.argId.toNat (k.val + 1)) (k.val + 1) s.cacheLen.toNat =
      (List.range 65536).countP (s.holdsTail (k.val + 1)) := by
    rw [State.countMatches, State.entryTable, List.countP_map, List.range_eq_range']
    rfl
  rw [State.reportWords]
  simp only [Fin.getElem_fin, Vector.getElem_ofFn, hcount, BitVec.toNat_ofNat]
  exact Nat.mod_eq_of_lt (Nat.lt_of_le_of_lt (State.countP_holdsTail_le _) (by decide))

theorem State.holdsTail_iff (L id : Nat) : s.holdsTail L id = true ↔
    ∃ p, s.HoldsAt (s.tailBit s.snap.argId.toNat L) L s.cacheLen.toNat id p :=
  s.matchPos_isSome_iff_holdsAt _ _ _ _

/-- The truth entry holds its own tail. -/
theorem State.holdsTail_self {L : Nat} (hL : L ≤ s.cacheLen.toNat) : s.holdsTail L s.snap.argId.toNat = true :=
  State.holdsTail_iff _ _ |>.2 ⟨s.cacheLen.toNat - L, by omega, fun j _ => rfl⟩

/-- A longer tail ends in the shorter one, so an entry that holds it holds the shorter one too. -/
theorem State.holdsTail_of_longer {L L' id : Nat} (hle : L ≤ L') (hlen : L' ≤ s.cacheLen.toNat)
    (h : s.holdsTail L' id = true) : s.holdsTail L id = true := by
  rw [State.holdsTail_iff] at *
  obtain ⟨p, hfit, hbits⟩ := h
  refine ⟨p + (L' - L), by omega, fun j hj => ?_⟩
  have hplace : p + (L' - L) + j = p + (L' - L + j) := by omega
  have htail : s.cacheLen.toNat - L' + (L' - L + j) = s.cacheLen.toNat - L + j := by omega
  rw [hplace, hbits _ (by omega), State.tailBit, State.tailBit, htail]

end

/-- Settles O26: the search succeeds exactly if some position matches, which is what the statement counts. -/
theorem reportCountsTailMatches : Obligations.ReportCountsTailMatches := by
  unfold Obligations.ReportCountsTailMatches
  intro s hid hvalid hlen N T
  refine ⟨_, exec_report_of_legal hid hvalid hlen, ⟨rfl, rfl, rfl⟩, fun k => ?_, ?_⟩
  · rw [State.finish_report, State.identifiability_report, State.reportWords_toNat]
    refine List.countP_congr fun id _ => ?_
    rw [State.holdsTail, State.matchPos, List.isSome_find?, Nat.add_sub_add_right]
    rfl
  · rw [State.identifiability]
    rfl

/-- Settles O41: the truth entry is among the counted, and a longer tail is counted for no further entry. -/
theorem reportCountsNeverGrow : Obligations.ReportCountsNeverGrow := by
  unfold Obligations.ReportCountsNeverGrow
  intro s t h herr
  obtain ⟨hid, hlen, rfl⟩ := exec_report_succeeded h herr
  have hcount (k : Fin 64) : ((s.identifiability.finish .noError).report[k]).toNat =
      (List.range 65536).countP (s.holdsTail (k.val + 1)) := by
    rw [State.finish_report, State.identifiability_report, State.reportWords_toNat]
  have hfits (k : Fin 64) : k.val + 1 ≤ s.cacheLen.toNat := by omega
  refine ⟨fun k => ?_, fun k k' hle => ?_⟩
  · rw [hcount]
    refine ⟨List.countP_pos_iff.2 ⟨s.snap.argId.toNat, List.mem_range.2 (by omega), State.holdsTail_self (hfits k)⟩, ?_⟩
    exact State.countP_holdsTail_le _
  · rw [hcount, hcount]
    exact List.countP_mono_left fun id _ => State.holdsTail_of_longer (by omega) (hfits k')

end Sys2Proof.Machine
end

section
/-! The host port: the register map read both ways (10_state.md R29), the busy refusal and the idempotence of reads
(20_memory.md section 2), and what each register reads and stores (10_state.md R30 to R50). -/

namespace Sys2Proof.Machine

/-! The register map (10_state.md R29). -/

theorem registerTable_offset : ∀ e ∈ registerTable, e.1 = e.2.offset.toNat := by decide

/-- An offset that names a register is that register's own. -/
theorem Reg.eq_offset_of_ofOffset {a : BitVec 16} {r : Reg} (h : Reg.ofOffset a = some r) : a = r.offset := by
  apply BitVec.eq_of_toNat_eq
  simp only [Reg.ofOffset] at h
  split at h
  · cases h
  next halign =>
    split at h
    next hrange =>
      cases h
      simp [Reg.offset]
      omega
    next =>
      split at h
      next hrange =>
        cases h
        rw [(Reg.window_offset _).1]
        simp
        omega
      next =>
        split at h
        next hrange =>
          cases h
          rw [(Reg.window_offset _).2]
          simp
          omega
        next => exact registerTable_offset _ (Memory.mem_of_find? _ _ _ h)

theorem Reg.listedAt_iff_offset (z : Config.Sizes) (a : BitVec 16) (r : Reg) :
    Reg.listedAt z a = some r ↔ a = r.offset ∧ r.listed z = true := by
  rw [Reg.listedAt_eq_some_iff]
  refine and_congr_left fun _ => ⟨Reg.eq_offset_of_ofOffset, ?_⟩
  rintro rfl
  exact Reg.ofOffset_offset r

/-- Settles O42: the map's windows and its table give each register its own offset, and the sizes are whole words. -/
theorem offsetsNameRegisters : Obligations.OffsetsNameRegisters := by
  unfold Obligations.OffsetsNameRegisters
  refine ⟨Reg.listedAt_iff_offset, fun z w => ⟨?_, ?_⟩, fun z r hcache hout => ?_⟩
  · have hlegal := z.cacheMaxBits_legal
    refine decide_eq_true_iff.trans ?_
    simp only [Config.Sizes.cacheWords]
    omega
  · have hlegal := z.genMaxBits_legal
    refine decide_eq_true_iff.trans ?_
    simp only [Config.Sizes.genWords]
    omega
  · cases r with
    | cacheWin w => exact absurd rfl (hcache w)
    | outWin w => exact absurd rfl (hout w)
    | _ => rfl

/-! Registers that are not of class BR, busy or idle (20_memory.md R58). -/

section

variable {s : State} {r : Reg}

theorem Reg.listed_of_not_isBR (z : Config.Sizes) (hbr : r.isBR = false) : r.listed z = true := by
  cases r with
  | cacheWin w => cases hbr
  | outWin w => cases hbr
  | _ => rfl

theorem State.hostRead_of_not_isBR (hbr : r.isBR = false) :
    s.hostRead r.offset 4 = { s with readData := some (s.readValue r) } := by
  rw [s.hostRead_offset r (Reg.listed_of_not_isBR _ hbr), hbr, Bool.false_and, if_neg (by decide)]

theorem State.hostWrite_of_not_isBR (v : Word) (hbr : r.isBR = false) (hro : r.isRO = false) :
    s.hostWrite r.offset 4 v = s.writeEffect r v := by
  rw [s.hostWrite_offset r v (Reg.listed_of_not_isBR _ hbr), hbr, hro, Bool.false_and, if_neg (by decide)]

theorem State.hostRead_of_busy (hbusy : s.busy = true) (hbr : r.isBR = true) :
    s.hostRead r.offset 4 = { s with accErr := true, readData := some 0#32 } := by
  cases hl : r.listed s.sizes with
  | false => exact State.hostRead_of_reaches_none (s.reaches_unlisted r hl)
  | true => exact State.hostRead_of_reaches_none (by rw [s.reaches_offset r hl, hbr, hbusy]; rfl)

end

/-- Settles O46: the first list and the windows are the registers of class BR, the second list the others. -/
theorem busyRefusal : Obligations.BusyRefusal := by
  unfold Obligations.BusyRefusal
  intro s v r hbusy
  refine ⟨fun hr => ?_, fun hr => ?_⟩
  · have hbr : r.isBR = true := by
      obtain hmem | ⟨k, rfl⟩ | ⟨w, rfl⟩ | ⟨w, rfl⟩ := hr
      · revert r
        decide
      · rfl
      · rfl
      · rfl
    exact ⟨State.hostRead_of_busy hbusy hbr, State.hostWrite_of_busy v hbusy hbr⟩
  · have hbr : r.isBR = false := by
      revert r
      decide
    exact ⟨State.hostRead_of_not_isBR hbr, State.hostWrite_of_not_isBR v hbr⟩

/-! Reads (20_memory.md section 2). -/

/-- No register shows what the host read before (log 3). -/
theorem State.readValue_readData (s : State) (d : Option Word) (r : Reg) :
    { s with readData := d }.readValue r = s.readValue r := by
  cases r <;> rfl

/-- Settles O47: a second read reaches what the first reached, and the value does not depend on what was read. -/
theorem readsAreIdempotent : Obligations.ReadsAreIdempotent := by
  unfold Obligations.ReadsAreIdempotent
  intro s a size
  obtain ⟨hnone, heq⟩ | ⟨r, hreach, heq⟩ := s.hostRead_cases a size
  · rw [heq]
    exact ⟨rfl, State.hostRead_of_reaches_none hnone⟩
  · rw [heq]
    refine ⟨rfl, (State.hostRead_of_reaches_some (r := r) hreach).trans ?_⟩
    rw [State.readValue_readData]

/-! The status words as numbers (10_state.md R34, R35, R41). -/

theorem State.ctrlWord_toNat (s : State) : s.ctrlWord.toNat = s.ie.toNat + 2 * s.winEn.toNat := by
  rw [State.ctrlWord]
  generalize s.ie = ie, s.winEn = winEn
  revert ie winEn
  decide

theorem State.resBits_toNat (s : State) :
    s.resBits.toNat = s.x1.last.toNat + 2 * s.x2.last.toNat + 4 * (s.x1.last ^^ s.x2.last).toNat := by
  rw [State.resBits]
  generalize s.x1.last = b1, s.x2.last = b2
  revert b1 b2
  decide

theorem State.statusWord_toNat (s : State) :
    s.statusWord.toNat = s.busy.toNat + 2 * s.done.toNat + 4 * s.cmdLost.toNat + 8 * s.accErr.toNat +
      16 * s.cacheState.code + 256 * s.err.code := by
  rw [State.statusWord]
  generalize s.busy = busy, s.done = done, s.cmdLost = cmdLost, s.accErr = accErr
  revert busy done cmdLost accErr
  cases s.cacheState <;> cases s.err <;> decide

/-- Settles O49: each word's fields are disjoint, so that it is their sum, and the codes are the spec's. -/
theorem statusFieldsReadAtTheirPlaces : Obligations.StatusFieldsReadAtTheirPlaces := by
  unfold Obligations.StatusFieldsReadAtTheirPlaces
  intro s v
  refine ⟨?_, s.ctrlWord_toNat, s.resBits_toNat, State.hostWrite_of_not_isBR v rfl rfl⟩
  refine s.statusWord_toNat.trans ?_
  cases s.cacheState <;> cases s.err <;> rfl

/-! The word windows and the observation registers (10_state.md R37 to R50). -/

/-- Settles O50: both windows are words built from bits. -/
theorem windowWordsAreMasked : Obligations.WindowWordsAreMasked := by
  unfold Obligations.WindowWordsAreMasked
  intro s w j hj
  refine ⟨(getLsbD_wordOfBits _ j).trans ?_, (getLsbD_wordOfBits _ j).trans ?_⟩
  · rw [decide_eq_true hj, Bool.true_and]
  · rw [decide_eq_true hj, Bool.true_and]
    rfl

/-- A word of two 16-bit halves. -/
theorem halves_toNat {hi lo : Nat} (hhi : hi < 65536) (hlo : lo < 65536) :
    (BitVec.ofNat 32 (hi <<< 16 ||| lo)).toNat = lo + 65536 * hi :=
  (resultOf_toNat lo hi hlo hhi).trans (Nat.add_comm _ _)

theorem bitAt_zero_toNat (b : Bool) : (bitAt b 0).toNat = b.toNat := by
  revert b
  decide

theorem setWidth_32_toNat (x : BitVec 16) : (x.setWidth 32).toNat = x.toNat := by
  have hlt := x.isLt
  simp
  omega

theorem Lfsr.stateWord_getLsbD_31 (u : Lfsr) : u.stateWord.getLsbD 31 = false := by
  simp [Lfsr.stateWord]

theorem Lfsr.ptr_toNat (u : Lfsr) : (BitVec.ofNat 32 u.ptr.val).toNat = u.ptr.val := by
  have hlt := u.ptr.isLt
  rw [BitVec.toNat_ofNat]
  omega

theorem param2_toNat (z : Config.Sizes) :
    (BitVec.ofNat 32 (Config.lfsrLen <<< 24 ||| Config.queryMax <<< 16 ||| z.winCapMax)).toNat =
      z.winCapMax + 65536 * 64 + 16777216 * 31 := by
  have hlegal := z.winCapMax_legal
  have hhigh : Config.lfsrLen <<< 24 ||| Config.queryMax <<< 16 = 0x1F40 <<< 16 := by decide
  rw [hhigh]
  refine (halves_toNat (by decide) (by omega)).trans ?_
  omega

/-- WIN_DATA reads the selected window's bit, and 0 past its end (10_state.md R48). -/
theorem State.winData_toNat (s : State) :
    (s.readValue .winData).toNat =
      ((if s.winSel then s.x2.win else s.x1.win).getD s.winIdx.toNat false).toNat :=
  bitAt_zero_toNat _

/-- Settles O51: most registers show a field as it is; the packed ones are read half by half. -/
theorem observationRegistersRead : Obligations.ObservationRegistersRead := by
  unfold Obligations.ObservationRegistersRead
  intro s
  have hcache := s.sizes.cacheMaxBits_legal
  have hgen := s.sizes.genMaxBits_legal
  refine ⟨fun hlt => if_pos hlt, fun hle => if_neg (Nat.not_lt.2 hle), fun b hb => ?_, fun hle => ?_, fun h1 h2 => ?_,
    s.x1.ptr_toNat, s.x2.ptr_toNat, rfl, rfl, s.x1.stateWord_getLsbD_31, s.x2.stateWord_getLsbD_31, fun _ => rfl, rfl, rfl,
    rfl, rfl, rfl, rfl, rfl, rfl, rfl, rfl, rfl, rfl, rfl, rfl, rfl, rfl, setWidth_32_toNat _, setWidth_32_toNat _,
    bitAt_zero_toNat _, setWidth_32_toNat _, rfl, rfl, ?_, param2_toNat s.sizes⟩
  · rw [State.winData_toNat, List.getD_eq_getElem?_getD, hb, Option.getD_some]
  · apply BitVec.eq_of_toNat_eq
    rw [State.winData_toNat, List.getD_eq_getElem?_getD, List.getElem?_eq_none hle]
    rfl
  · have hmod1 := Nat.mod_eq_of_lt (Nat.lt_succ_of_le h1)
    have hmod2 := Nat.mod_eq_of_lt (Nat.lt_succ_of_le h2)
    simp only [State.readValue, hmod1, hmod2]
    exact halves_toNat (Nat.lt_succ_of_le h2) (Nat.lt_succ_of_le h1)
  · exact halves_toNat (by simp only [Config.Sizes.cacheWords]; omega) (by simp only [Config.Sizes.genWords]; omega)

/-! What the writable registers store (10_state.md R34, R38 to R40, R43, R47, R48). -/

theorem low_bit_toNat (v : Word) (i : Nat) : (v.getLsbD i).toNat = v.toNat / 2 ^ i % 2 := by
  rw [← BitVec.testBit_toNat, Nat.toNat_testBit]

theorem low_half_toNat (v : Word) : ((v.extractLsb' 0 16).setWidth 32).toNat = v.toNat % 65536 := by
  rw [setWidth_32_toNat, BitVec.extractLsb'_toNat, Nat.shiftRight_zero]

/-- The operand registers are written whatever the block does (20_memory.md R57, R58). -/
theorem State.hostWrite_operand {s : State} {r : Reg} (v : Word) (hr : r ∈ operandRegs) :
    s.hostWrite r.offset 4 v = s.writeEffect r v := by
  have hplain : ∀ r ∈ operandRegs, r.isBR = false ∧ r.isRO = false := by decide
  exact State.hostWrite_of_not_isBR v (hplain r hr).1 (hplain r hr).2

section

variable (s : State) (v : Word) {r : Reg} (hr : r ∈ operandRegs)

include hr

/-- A write to one operand register is read back there and shows in no other register. -/
theorem State.readValue_writeEffect_operand (r' : Reg) :
    (s.writeEffect r v).readValue r' = if r' = r then v else s.readValue r' := by
  simp only [operandRegs, List.mem_cons, List.not_mem_nil, or_false] at hr
  obtain rfl | rfl | rfl | rfl | rfl | rfl | rfl | rfl | rfl | rfl := hr <;> cases r' <;> rfl

theorem State.writeEffect_operand_frame :
    { s.writeEffect r v with
      argCinit := s.argCinit, argLen := s.argLen, argId := s.argId, argSps := s.argSps, argSlot := s.argSlot,
      argSym := s.argSym, winCap := s.winCap, queryLen := s.queryLen, queryLo := s.queryLo,
      queryHi := s.queryHi } = s := by
  simp only [operandRegs, List.mem_cons, List.not_mem_nil, or_false] at hr
  obtain rfl | rfl | rfl | rfl | rfl | rfl | rfl | rfl | rfl | rfl := hr <;> rfl

end

section

variable (s : State) (v : Word)

@[simp] theorem State.hostWrite_ctrl : s.hostWrite Reg.ctrl.offset 4 v = s.controlWrite v :=
  State.hostWrite_of_not_isBR v rfl rfl

@[simp] theorem State.hostWrite_status : s.hostWrite Reg.status.offset 4 v = s.writeStatus v :=
  State.hostWrite_of_not_isBR v rfl rfl

theorem State.controlWrite_of_plain (h : v.getLsbD 31 = false) : s.controlWrite v = s.writeCtrl v := by
  rw [State.controlWrite, h, if_neg (by decide)]

theorem State.controlWrite_of_reset (h : v.getLsbD 31 = true) : s.controlWrite v = s.softReset :=
  if_pos h

end

/-- Settles O48: no such register is of class BR or RO, so each write is the register's own effect. -/
theorem operandRegistersStoreAsWritten : Obligations.OperandRegistersStoreAsWritten := by
  unfold Obligations.OperandRegistersStoreAsWritten
  refine ⟨fun s v r hr => ?_, fun s v hplain => ?_, fun s v => ?_, fun s v => ?_, fun s v => ?_, fun s v => ?_⟩
  · rw [State.hostWrite_operand v hr]
    have hread := s.readValue_writeEffect_operand v hr
    exact ⟨(hread r).trans (if_pos rfl), fun r' hne => (hread r').trans (if_neg hne), s.writeEffect_operand_frame v hr⟩
  · rw [State.hostWrite_ctrl, State.controlWrite_of_plain s v hplain]
    refine ⟨rfl, (s.writeCtrl v).ctrlWord_toNat.trans ?_⟩
    rw [State.writeCtrl_ie, State.writeCtrl_winEn, low_bit_toNat, low_bit_toNat]
    omega
  · rw [State.hostWrite_of_not_isBR v rfl rfl]
    exact ⟨rfl, low_half_toNat v⟩
  · rw [State.hostWrite_of_not_isBR v rfl rfl]
    exact ⟨rfl, low_half_toNat v⟩
  · rw [State.hostWrite_of_not_isBR v rfl rfl]
    refine ⟨rfl, (bitAt_zero_toNat (v.getLsbD 0)).trans ?_⟩
    rw [low_bit_toNat, Nat.pow_zero, Nat.div_one]
  · rw [State.hostWrite_of_not_isBR v rfl rfl]
    exact ⟨rfl, low_half_toNat v⟩

/-! The interrupt (60_exceptions.md R127). -/

/-- Settles O54: IRQ is a product of two fields, one of which each clearing event clears. -/
theorem interruptFollowsCompletion : Obligations.InterruptFollowsCompletion := by
  unfold Obligations.InterruptFollowsCompletion
  refine ⟨fun s => rfl, fun s hbusy => ?_, fun s v hack => ?_, fun s v hie => ?_, fun s v => ?_, fun s => ⟨rfl, rfl⟩,
    fun s => ⟨rfl, rfl⟩⟩
  · obtain ⟨t, ht⟩ := complete_total s
    obtain ⟨-, hdone, hie, -⟩ := complete_completed ht
    exact ⟨t, (engineTurn_of_busy hbusy).trans ht, by rw [State.irq, hdone, hie, Bool.and_true]⟩
  · rw [State.hostWrite_status, State.irq, State.writeStatus_done, hack]
    simp
  · rw [State.hostWrite_ctrl]
    cases hsrst : v.getLsbD 31 with
    | true =>
      rw [State.controlWrite_of_reset s v hsrst]
      rfl
    | false => rw [State.controlWrite_of_plain s v hsrst, State.irq, State.writeCtrl_ie, hie, Bool.false_and]
  · rw [State.irq, State.accept_done, Bool.and_false]

/-! The snapshot (10_state.md R24). -/

/-- The state with these values of CTRL and of the operand registers. -/
def State.loadOperands (s : State) (ie : Bool) (S : Snapshot) : State :=
  { s with
    ie := ie, winEn := S.winEn, winCap := S.winCap, argCinit := S.argCinit, argLen := S.argLen, argId := S.argId,
    argSps := S.argSps, argSlot := S.argSlot, argSym := S.argSym, queryLen := S.queryLen, queryLo := S.queryLo,
    queryHi := S.queryHi }

section

variable (s : State) (ie : Bool) (S : Snapshot)

theorem State.loadOperands_own : s.loadOperands s.ie (s.capture 0#32) = s := rfl

theorem State.recover_loadOperands : (s.loadOperands ie S).recover = s.recover.loadOperands ie S := rfl

theorem State.reportWords_loadOperands : (s.loadOperands ie S).reportWords = s.reportWords := rfl

theorem State.identifiability_loadOperands :
    (s.loadOperands ie S).identifiability = s.identifiability.loadOperands ie S := by
  rw [State.identifiability, State.reportWords_loadOperands]
  rfl

theorem State.everyLenIs_loadOperands (N : Word) : (s.loadOperands ie S).everyLenIs N = s.everyLenIs N := rfl

theorem checksOf_loadOperands (i : Instr) : checksOf i (s.loadOperands ie S) = checksOf i s := by
  cases i <;> rfl

theorem effectOf_loadOperands (i : Instr) :
    effectOf i (s.loadOperands ie S) = (effectOf i s).loadOperands ie S := by
  cases i with
  | find => rw [effectOf_find, effectOf_find, State.recover_loadOperands]
  | report => rw [effectOf_report, effectOf_report, State.identifiability_loadOperands]
  | _ => rfl

theorem State.finish_loadOperands (e : ErrCode) :
    (s.loadOperands ie S).finish e = (s.finish e).loadOperands ie S := rfl

end

section

variable {s t : State} (ie : Bool) (S : Snapshot)

/-- No command reads or writes CTRL or an operand register (10_state.md R24). -/
theorem exec_loadOperands {i : Instr} (h : exec i s = .next t) :
    exec i (s.loadOperands ie S) = .next (t.loadOperands ie S) := by
  obtain ⟨hbad, rfl⟩ | ⟨hi, hok, rfl⟩ | ⟨rfl, hok, hcommit⟩ := exec_cases i s t h
  · rw [exec_error _ _ (by rwa [checksOf_loadOperands]), checksOf_loadOperands, State.finish_loadOperands]
  · rw [exec_ok _ _ hi (by rwa [checksOf_loadOperands]), effectOf_loadOperands, State.finish_loadOperands]
  · have hlen : s.snap.argLen.toNat ≤ s.sizes.cacheMaxBits := cacheLen_le_of_checks hok (.inr rfl)
    have hcase := exec_commit_of_legal (s := s.loadOperands ie S) hlen
    rw [State.everyLenIs_loadOperands] at hcase
    obtain ⟨heq, rfl⟩ | ⟨hne, rfl⟩ := hcommit
    · exact hcase.trans (congrArg _ (if_pos heq))
    · exact hcase.trans (congrArg _ (if_neg (Bool.eq_false_iff.1 hne)))

theorem engineTurn_loadOperands (h : engineTurn s = .next t) :
    engineTurn (s.loadOperands ie S) = .next (t.loadOperands ie S) := by
  cases hbusy : s.busy with
  | false =>
    rw [engineTurn_of_idle hbusy] at h
    cases h
    exact engineTurn_of_idle (s := s.loadOperands ie S) hbusy
  | true =>
    rw [engineTurn_of_busy hbusy] at h
    rw [engineTurn_of_busy (s := s.loadOperands ie S) hbusy]
    cases hdec : decode s.snap.cmd with
    | ok i =>
      rw [complete_of_legal hdec] at h
      rw [complete_of_legal (s := s.loadOperands ie S) hdec]
      exact exec_loadOperands ie S h
    | illegal why =>
      rw [complete_of_illegal hdec] at h
      cases h
      exact complete_of_illegal (s := s.loadOperands ie S) hdec

/-- The engine's turn leaves CTRL and the operand registers: it commutes with loading them with what they hold. -/
theorem engineTurn_operands (h : engineTurn s = .next t) : t.loadOperands s.ie (s.capture 0#32) = t := by
  have hload := engineTurn_loadOperands s.ie (s.capture 0#32) h
  rw [State.loadOperands_own] at hload
  exact Host.Outcome.next.inj (hload.symm.trans h)

end

/-- A write to an operand register, or to CTRL with bit 31 clear, loads CTRL and the operand registers with values that
depend on what these hold and on nothing else. -/
theorem State.hostWrite_loadOperands {r : Reg} {v : Word} (ie : Bool) (S : Snapshot)
    (hr : r ∈ operandRegs ∨ (r = .ctrl ∧ v.getLsbD 31 = false)) :
    ∃ ie' S', ∀ u : State, (u.loadOperands ie S).hostWrite r.offset 4 v = u.loadOperands ie' S' := by
  obtain hr | ⟨rfl, hplain⟩ := hr
  · simp only [State.hostWrite_operand v hr]
    simp only [operandRegs, List.mem_cons, List.not_mem_nil, or_false] at hr
    obtain rfl | rfl | rfl | rfl | rfl | rfl | rfl | rfl | rfl | rfl := hr
    · exact ⟨ie, { S with argCinit := v }, fun u => rfl⟩
    · exact ⟨ie, { S with argLen := v }, fun u => rfl⟩
    · exact ⟨ie, { S with argId := v }, fun u => rfl⟩
    · exact ⟨ie, { S with argSps := v }, fun u => rfl⟩
    · exact ⟨ie, { S with argSlot := v }, fun u => rfl⟩
    · exact ⟨ie, { S with argSym := v }, fun u => rfl⟩
    · exact ⟨ie, { S with winCap := v }, fun u => rfl⟩
    · exact ⟨ie, { S with queryLen := v }, fun u => rfl⟩
    · exact ⟨ie, { S with queryLo := v }, fun u => rfl⟩
    · exact ⟨ie, { S with queryHi := v }, fun u => rfl⟩
  · refine ⟨v.getLsbD 0, { S with winEn := v.getLsbD 1 }, fun u => ?_⟩
    rw [State.hostWrite_ctrl, State.controlWrite_of_plain _ v hplain]
    rfl

/-- No register shows the snapshot. -/
theorem State.readValue_snap (s : State) (S : Snapshot) (r : Reg) :
    { s with snap := S }.readValue r = s.readValue r := by
  cases r <;> rfl

/-- Settles O53: acceptance captures the operands, and loading others commutes with the engine's turn, which leaves
what the write reads. -/
theorem runningCommandReadsSnapshotOnly : Obligations.RunningCommandReadsSnapshotOnly := by
  unfold Obligations.RunningCommandReadsSnapshotOnly
  refine ⟨fun s v hidle => ?_, State.readValue_snap, fun s v r hbusy hr => ?_⟩
  · rw [State.hostWrite_cmd, State.issue_of_idle v hidle]
    rfl
  · obtain ⟨t, ht⟩ := engineTurn_total s
    obtain ⟨ie', S', hwrite⟩ := State.hostWrite_loadOperands s.ie (s.capture 0#32) hr
    have hs : s.hostWrite r.offset 4 v = s.loadOperands ie' S' := hwrite s
    have htw : t.hostWrite r.offset 4 v = t.loadOperands ie' S' := engineTurn_operands ht ▸ hwrite t
    refine ⟨t, ht, ?_⟩
    rw [hs, htw]
    exact engineTurn_loadOperands ie' S' ht

end Sys2Proof.Machine
end

section
/-! Resets (70_reset_and_hazards.md R138 to R140): the registers after any reset, and the memories after a soft reset
of an idle and of a busy block. -/

namespace Sys2Proof.Machine

/-! The registers after a reset. -/

/-- The power-on state but for the configuration, the cells of the three memories, the snapshot and the fields that
are the model's own: what both resets leave (70_reset_and_hazards.md R138, R139). -/
def State.IsReset (t : State) : Prop :=
  t = { State.reset with
    sizes := t.sizes, outbuf := t.outbuf, outbufMark := t.outbufMark, cache := t.cache, cacheMark := t.cacheMark,
    result := t.result, resultMark := t.resultMark, snap := t.snap, freeCount := t.freeCount, pending := t.pending,
    readData := t.readData }

theorem State.hardReset_isReset (s : State) : s.hardReset.IsReset := rfl

theorem State.softReset_isReset (s : State) : s.softReset.IsReset := rfl

section

variable {t : State}

theorem loadX1_stateWord : loadX1.stateWord = 1#32 := by decide

theorem Lfsr.zero_stateWord : Lfsr.zero.stateWord = 0#32 := by decide

theorem State.winLen_of_empty (h1 : t.x1.win = []) (h2 : t.x2.win = []) : t.readValue .winLen = 0#32 := by
  simp [State.readValue, h1, h2]

/-- Every register of the reset table reads its value there, once no recorded length is left
(70_reset_and_hazards.md R138). -/
theorem State.IsReset.readValue (h : t.IsReset) (helen : t.elen 0 = 0#32) :
    ∀ p ∈ resetReads, t.readValue p.1 = p.2 := by
  rw [State.IsReset] at h
  rw [h] at helen ⊢
  simp only [resetReads, List.cons_append, List.nil_append, List.forall_mem_cons]
  exact ⟨rfl, rfl, BitVec.eq_of_toNat_eq (State.ctrlWord_toNat _), BitVec.eq_of_toNat_eq (State.statusWord_toNat _),
    rfl, rfl, rfl, rfl, rfl, rfl, rfl, rfl, rfl, rfl, rfl, rfl, rfl, rfl,
    State.resBits_of_last_false rfl rfl, rfl, rfl, helen, rfl, rfl, rfl, rfl, rfl, State.winLen_of_empty rfl rfl,
    loadX1_stateWord, rfl, rfl, Lfsr.zero_stateWord, rfl, rfl, fun p hp => by cases hp⟩

theorem State.IsReset.report (h : t.IsReset) (k : Fin 64) : t.report[k] = 0#32 := by
  rw [State.IsReset] at h
  rw [h]
  simp [State.reset]

/-- The window words read 0: OUT_LEN is 0, and so is every recorded length. -/
theorem State.IsReset.windows (h : t.IsReset) (helen : ∀ id, t.elen id = 0#32) (w : Fin 2048) :
    t.readValue (.outWin w) = 0#32 ∧ t.readValue (.cacheWin w) = 0#32 := by
  have hout : t.outLen = 0#32 := by rw [h]; rfl
  have hwindow := windowWordsAreMasked t w
  refine ⟨BitVec.eq_of_getLsbD_eq fun j hj => ?_, BitVec.eq_of_getLsbD_eq fun j hj => ?_⟩
  · simp [(hwindow j hj).1, hout]
  · simp [(hwindow j hj).2, helen]

end

theorem State.elen_hardReset (s : State) (id : Nat) : s.hardReset.elen id = 0#32 := rfl

/-- Settles O55: the power-on state is a hardware reset too, and each reset leaves the table's values. -/
theorem hardwareResetValues : Obligations.HardwareResetValues := by
  unfold Obligations.HardwareResetValues
  intro s s' hs'
  obtain ⟨u, rfl⟩ : ∃ u : State, s' = u.hardReset := by
    obtain rfl | rfl := hs'
    · exact ⟨_, State.reset_eq_hardReset⟩
    · exact ⟨s, rfl⟩
  have hreset := u.hardReset_isReset
  refine ⟨hreset.readValue (u.elen_hardReset 0), rfl, fun hsizes => ?_, hreset.report, u.elen_hardReset, rfl, rfl,
    hreset.windows u.elen_hardReset, rfl, ?_⟩
  · simp only [State.readValue, hsizes]
    decide
  · show Lfsr.zero = loadX2 0#32
    decide

/-! What an aborted command takes with it (70_reset_and_hazards.md R140). -/

/-- A renewed mark gives the new number below its bound and the old ones from there on. -/
theorem FreeMark.markAt_renew_of_ge (m : FreeMark) {bound n i : Nat} (hi : bound ≤ i) :
    (m.renew bound n).markAt i = m.markAt i := by
  simp [FreeMark.markAt, FreeMark.renew, Nat.not_lt.2 hi]

section

variable (s : State)

/-- Abandoning loses only the memory that the accepted command writes: `State.abandon_cases` with the command. -/
theorem State.abandon_cases_decode :
    s.abandon = s ∨
      ((decode s.snap.cmd = .ok .gen ∨ decode s.snap.cmd = .ok .genid) ∧
        s.abandon = { s with
          outbuf := s.outbuf.forget s.snap.argLen.toNat
          outbufMark := s.outbufMark.renew s.snap.argLen.toNat s.freeCount }) ∨
      (decode s.snap.cmd = .ok .build ∧
        s.abandon = { s with
          cache := Memory.mapContents CacheEntry.blank
            (fun e => { e with cells := e.cells.forget s.snap.argLen.toNat }) s.cache
          cacheMark := s.cacheMark.renew s.snap.argLen.toNat s.freeCount }) ∨
      (decode s.snap.cmd = .ok .find ∧ s.abandon = { s with result := [], resultMark := s.freeCount }) := by
  unfold State.abandon
  cases decode s.snap.cmd with
  | illegal why => exact .inl rfl
  | ok i =>
    cases i with
    | gen => by_cases hok : firstError (genChecks s.sizes s.snap) = .noError <;> simp [hok]
    | genid => by_cases hok : firstError (genidChecks s.sizes s.snap) = .noError <;> simp [hok]
    | build => by_cases hok : firstError (buildChecks s.sizes s.snap) = .noError <;> simp [hok]
    | find => by_cases hok : firstError (findChecks s) = .noError <;> simp [hok]
    | _ => exact .inl rfl

theorem State.outBit_abandon {i : Nat} (hi : i < s.sizes.genMaxBits)
    (hkeep : s.snap.argLen.toNat ≤ i ∨ (decode s.snap.cmd ≠ .ok .gen ∧ decode s.snap.cmd ≠ .ok .genid)) :
    s.abandon.outBit i = s.outBit i := by
  obtain heq | ⟨hcmd, heq⟩ | ⟨-, heq⟩ | ⟨-, heq⟩ := s.abandon_cases_decode <;> rw [heq]
  · have hge : s.snap.argLen.toNat ≤ i := hkeep.resolve_right fun ⟨hgen, hgenid⟩ => hcmd.elim hgen hgenid
    rw [State.outBit, FreeMark.markAt_renew_of_ge _ hge, Cells.read_forget _ _ _ _ (lt_maxBits_of_lt_genMaxBits hi),
      if_neg (Nat.not_lt.2 hge)]
    rfl
  · rfl
  · rfl

theorem State.cacheBit_abandon (hs : s.cache.sorted) (id : Nat) {i : Nat} (hi : i < s.sizes.cacheMaxBits)
    (hkeep : s.snap.argLen.toNat ≤ i ∨ decode s.snap.cmd ≠ .ok .build) :
    s.abandon.cacheBit id i = s.cacheBit id i := by
  obtain heq | ⟨-, heq⟩ | ⟨hcmd, heq⟩ | ⟨-, heq⟩ := s.abandon_cases_decode <;> rw [heq]
  · rfl
  · have hge : s.snap.argLen.toNat ≤ i := hkeep.resolve_right fun hbuild => hbuild hcmd
    rw [State.cacheBit, State.entryBit, FreeMark.markAt_renew_of_ge _ hge, State.cacheEntry,
      Memory.get_mapContents _ _ _ hs (CacheEntry.forget_blank _),
      Cells.read_forget _ _ _ _ (lt_maxBits_of_lt_cacheMaxBits hi), if_neg (Nat.not_lt.2 hge)]
    rfl
  · rfl

theorem State.resultWord_abandon (k : Nat) (hkeep : decode s.snap.cmd ≠ .ok .find) :
    s.abandon.resultWord k = s.resultWord k := by
  obtain heq | ⟨-, heq⟩ | ⟨-, heq⟩ | ⟨hcmd, -⟩ := s.abandon_cases_decode
  · rw [heq]
  · rw [heq]; rfl
  · rw [heq]; rfl
  · exact absurd hcmd hkeep

/-! The memories after a soft reset (70_reset_and_hazards.md R139). -/

theorem State.outBit_softReset (i : Nat) : s.softReset.outBit i = s.keptByReset.outBit i := rfl

theorem State.resultWord_softReset (k : Nat) : s.softReset.resultWord k = s.keptByReset.resultWord k := rfl

section

variable {s}
variable (hs : s.keptByReset.cache.sorted)

include hs

theorem State.elen_softReset (id : Nat) : s.softReset.elen id = 0#32 := by
  rw [State.elen, s.cacheEntry_softReset hs]

theorem State.cacheBit_softReset (id i : Nat) : s.softReset.cacheBit id i = s.keptByReset.cacheBit id i := by
  rw [State.cacheBit, s.cacheEntry_softReset hs]
  rfl

end

end

/-- Settles O56: an idle block's reset keeps the memories as they are. -/
theorem softResetKeepsMemories : Obligations.SoftResetKeepsMemories := by
  unfold Obligations.SoftResetKeepsMemories
  intro s v hsrst hidle hs
  have hkept := s.keptByReset_of_idle hidle
  have hsorted : s.keptByReset.cache.sorted := by rwa [hkept]
  have hreset := s.softReset_isReset
  rw [State.hostWrite_ctrl, State.controlWrite_of_reset s v hsrst]
  refine ⟨hreset.readValue (State.elen_softReset hsorted 0), hreset.report, State.elen_softReset hsorted, fun i => ?_,
    fun id i => ?_, fun k => ?_⟩
  · rw [State.outBit_softReset, hkept]
  · rw [State.cacheBit_softReset hsorted, hkept]
  · rw [State.resultWord_softReset, hkept]

/-- Settles O57: a busy block's reset keeps what abandoning the command keeps. -/
theorem busyResetLosesOnlyTargetCells : Obligations.BusyResetLosesOnlyTargetCells := by
  unfold Obligations.BusyResetLosesOnlyTargetCells
  intro s v hsrst hbusy hs
  have hkept := s.keptByReset_of_busy hbusy
  have hsorted : s.keptByReset.cache.sorted := hkept ▸ s.abandon_cache_sorted hs
  rw [State.hostWrite_ctrl, State.controlWrite_of_reset s v hsrst]
  refine ⟨rfl, rfl, rfl, s.softReset_isReset.readValue (State.elen_softReset hsorted 0), fun i hi hkeep => ?_,
    fun id i hi hkeep => ?_, fun hkeep k => ?_⟩
  · rw [State.outBit_softReset, hkept, s.outBit_abandon hi hkeep]
  · rw [State.cacheBit_softReset hsorted, hkept, s.cacheBit_abandon hs id hi hkeep]
  · rw [State.resultWord_softReset, hkept, s.resultWord_abandon k hkeep]

end Sys2Proof.Machine
end
